-- ==== Sys2Proof/Word.lean ====
section
/-! DEFINITION. The widths of the hardware's data (00_scope.md R7): every register is a byte,
the divisor is two bytes, a channel offset is 3 bits and an aggregate offset 5 bits. -/

namespace Sys2Proof

/-- A register or a byte on the bus (R7: "every register is 8 bits wide"; R202). -/
abbrev Byte := BitVec 8

/-- A channel register offset, 0 to 7 (R7, R200). -/
abbrev Offset := BitVec 3

/-- An aggregate offset of a composite device (R7, R304, R1102). -/
abbrev AggregateOffset := BitVec 5

end Sys2Proof
end

