-- ==== Sys2Proof/Config.lean ====
section
/-! DEFINITION. The creation parameters of a channel and of a composite device (00_scope.md R2, R6;
47_composite.md R1100), their values in `State.reset`, and the free values the spec leaves open. -/

namespace Sys2Proof

/-- The variant tag of a channel (R2). `V16450` behaves exactly as `V8250` (decision D1). -/
inductive Variant where
  | V8250
  | V16450
  | V16550
  | V16650
  | V16750
  | V16950
deriving DecidableEq, Repr

/-- Which channel a callback is about: the channel handle that every callback carries (R1212).
A machine of this model has one stand-alone channel and one composite device (log entry 1). -/
inductive Handle where
  /-- the stand-alone channel -/
  | standalone
  /-- child `i` of the composite device (R1101) -/
  | child (i : Fin 4)
deriving DecidableEq, Repr

/-- The four modem input lines, in the order of `MODEM_IN` (R6, R129). -/
structure ModemLines where
  dcd : Bool
  ri  : Bool
  dsr : Bool
  cts : Bool
deriving DecidableEq, Repr

/-- The immutable configuration of a channel (R6, R100). No host operation changes it. -/
structure ChannelConfig where
  /-- `VARIANT`: selects the capability row (R101) -/
  variant : Variant
  /-- `TAG`: text; no rule reads it -/
  tag : List Char
  /-- `OWNER`: an opaque handle; no rule reads it -/
  owner : Nat
  /-- `CLOCK` in Hz; no rule reads it (decision D36) -/
  clock : Nat
  /-- `CLOCK_SELECT`: selects the reset value of CKS on `V16950` (R123) -/
  clockSelect : Bool
  /-- `SUB`: the sub-channel ordinal given to the receive and transmit callbacks -/
  sub : Nat
  /-- `MODEM_IN`: OPEN parameter (decision D14) -/
  modemIn : ModemLines
  /-- `ID1`: OPEN parameter (decision D38) -/
  id1 : Byte
  /-- `ID2`: OPEN parameter (decision D38) -/
  id2 : Byte
  /-- `ID3`: OPEN parameter (decision D38) -/
  id3 : Byte
  /-- `REV`: OPEN parameter (decision D38) -/
  rev : Byte
  /-- `CKS_RESET(false)`: OPEN parameter (decision D37) -/
  cksResetFalse : Byte
  /-- `CKS_RESET(true)`: OPEN parameter (decision D37) -/
  cksResetTrue : Byte
  /-- the channel handle that the channel's callbacks carry (R1103, R1212) -/
  handle : Handle
deriving DecidableEq, Repr

/-- The creation parameters a composite gives to one child (R1100, "given per child i"). -/
structure ChildParams where
  variant : Variant
  clockSelect : Bool
  modemIn : ModemLines
  id1 : Byte
  id2 : Byte
  id3 : Byte
  rev : Byte
  cksResetFalse : Byte
  cksResetTrue : Byte
deriving DecidableEq, Repr

/-- The creation parameters every child of a composite shares (R1100). -/
structure SharedParams where
  /-- the parent's tag, a prefix of every child's -/
  tag : List Char
  owner : Nat
  clock : Nat
deriving DecidableEq, Repr

/-- FREE VALUE (log entry 6): the byte an RBR read returns when the receive FIFO is empty
(R502, R912: "any byte"; 93_implementation_defined.md U1). The argument is the channel and the
channel's draw counter, so every draw is a fresh one. -/
opaque Config.emptyPopByte : Handle → Nat → Byte

/-- FREE VALUE (log entry 7): `ASR_VALUE`, the byte a read of the auxiliary status register returns
(R124, R603; U2: "drawn freely per read"). -/
opaque Config.asrByte : Handle → Nat → Byte

/-- The per-child parameters in `State.reset` (log entries 2 to 5): the variant with every
feature; `MODEM_IN` all 0 as in 95_test_vectors.md's conventions; the identification values that
R121 suggests; `CKS_RESET` 0. -/
def Config.defaultParams : ChildParams where
  variant := .V16950
  clockSelect := false
  modemIn := ⟨false, false, false, false⟩
  id1 := 0x16
  id2 := 0xC9
  id3 := 0x50
  rev := 0x03
  cksResetFalse := 0x00
  cksResetTrue := 0x00

/-- The shared parameters in `State.reset`; no rule reads them (log entry 2). -/
def Config.defaultShared : SharedParams where
  tag := ['u', 'a', 'r', 't']
  owner := 0
  clock := 1843200

end Sys2Proof
end

