-- ==== Sys2Proof/Machine/Capability.lean ====
section
/-! DEFINITION. The capability table of the six variants (10_state.md R101), the bank-entry literal
(R405), and the configuration of a channel made from its creation parameters (R6, R1101). -/

namespace Sys2Proof

/-- `Depth`: the FIFO depth in bytes (R101, decision D20). -/
def Variant.depth : Variant → Nat
  | .V8250 => 0
  | .V16450 => 0
  | .V16550 => 16
  | .V16650 => 32
  | .V16750 => 64
  | .V16950 => 128

/-- `FifoCap` (R101). -/
def Variant.fifoCap : Variant → Bool
  | .V8250 => false
  | .V16450 => false
  | .V16550 => true
  | .V16650 => true
  | .V16750 => true
  | .V16950 => true

/-- `Bank650` (R101). -/
def Variant.hasBank650 : Variant → Bool
  | .V8250 => false
  | .V16450 => false
  | .V16550 => false
  | .V16650 => true
  | .V16750 => false
  | .V16950 => true

/-- `X950` (R101). -/
def Variant.x950 : Variant → Bool
  | .V8250 => false
  | .V16450 => false
  | .V16550 => false
  | .V16650 => false
  | .V16750 => false
  | .V16950 => true

/-- `Ext` (R101). -/
def Variant.ext : Variant → Bool
  | .V8250 => false
  | .V16450 => false
  | .V16550 => false
  | .V16650 => true
  | .V16750 => true
  | .V16950 => true

/-- The bank-entry literal (R405, decision D6). -/
def bankEntryLiteral : Byte := 0xBF

/-- The decimal form of an ordinal 0 to 3 (R1101). -/
def Config.ordinalDigit (i : Fin 4) : Char :=
  match i with
  | 0 => '0'
  | 1 => '1'
  | 2 => '2'
  | 3 => '3'

/-- The configuration of the stand-alone channel made from creation parameters (R6: `SUB` is 0). -/
def Config.standalone (sh : SharedParams) (p : ChildParams) : ChannelConfig where
  variant := p.variant
  tag := sh.tag
  owner := sh.owner
  clock := sh.clock
  clockSelect := p.clockSelect
  sub := 0
  modemIn := p.modemIn
  id1 := p.id1
  id2 := p.id2
  id3 := p.id3
  rev := p.rev
  cksResetFalse := p.cksResetFalse
  cksResetTrue := p.cksResetTrue
  handle := .standalone

/-- The configuration of child `i` of a composite (R1100, R1101): the tag is the parent's followed
by the ordinal, `SUB` is the ordinal. -/
def Config.child (sh : SharedParams) (i : Fin 4) (p : ChildParams) : ChannelConfig where
  variant := p.variant
  tag := sh.tag ++ [Config.ordinalDigit i]
  owner := sh.owner
  clock := sh.clock
  clockSelect := p.clockSelect
  sub := i.val
  modemIn := p.modemIn
  id1 := p.id1
  id2 := p.id2
  id3 := p.id3
  rev := p.rev
  cksResetFalse := p.cksResetFalse
  cksResetTrue := p.cksResetTrue
  handle := .child i

/-- `CKS_RESET(CLOCK_SELECT)` (R123, decision D37). -/
def ChannelConfig.cksReset (g : ChannelConfig) : Byte :=
  if g.clockSelect then g.cksResetTrue else g.cksResetFalse

/-- `DCD ++ RI ++ DSR ++ CTS`, the four line bits of MSR[7:4] (R112, R705). -/
def ModemLines.bits (m : ModemLines) : BitVec 4 :=
  BitVec.ofBool m.dcd ++ BitVec.ofBool m.ri ++ BitVec.ofBool m.dsr ++ BitVec.ofBool m.cts

end Sys2Proof
end

