-- ==== Sys2Proof/Syntax.lean ====
section
/-! DEFINITION. The operations of the hardware: one constructor of `Instr` per row of
spec/opcode_table.json (30_encoding.md R305), the operation words (R300, R304), and the assembler
forms with the pseudo-instructions (R308, R309). -/

namespace Sys2Proof

/-- One constructor per row of the opcode table. A read carries no operand: its D field is ignored
by the decoder (R302). -/
inductive Instr where
  /-- RD_RBR (R501) -/
  | rdRbr
  /-- RD_RBR_FIFO (R502) -/
  | rdRbrFifo
  /-- RD_DLL (R504) -/
  | rdDll
  /-- WR_THR (R503) -/
  | wrThr (d : Byte)
  /-- WR_DLL (R505) -/
  | wrDll (d : Byte)
  /-- RD_IER (R601) -/
  | rdIer
  /-- RD_ASR (R603) -/
  | rdAsr
  /-- RD_DLM (R506) -/
  | rdDlm
  /-- WR_IER (R602) -/
  | wrIer (d : Byte)
  /-- WR_DLM (R507) -/
  | wrDlm (d : Byte)
  /-- RD_IIR (R604) -/
  | rdIir
  /-- RD_EFR (R606) -/
  | rdEfr
  /-- WR_FCR (R605) -/
  | wrFcr (d : Byte)
  /-- WR_EFR (R607) -/
  | wrEfr (d : Byte)
  /-- RD_LCR (R608) -/
  | rdLcr
  /-- WR_LCR (R609) -/
  | wrLcr (d : Byte)
  /-- WR_LCR_BANK (R610): D is the literal 0xBF -/
  | wrLcrBank
  /-- RD_MCR (R611) -/
  | rdMcr
  /-- RD_XON1 (R613) -/
  | rdXon1
  /-- WR_MCR (R612) -/
  | wrMcr (d : Byte)
  /-- WR_XON1 (R614) -/
  | wrXon1 (d : Byte)
  /-- RD_LSR (R701) -/
  | rdLsr
  /-- RD_ICR (R615) -/
  | rdIcr
  /-- WR_LSR (R702) -/
  | wrLsr (d : Byte)
  /-- WR_ICR (R616) -/
  | wrIcr (d : Byte)
  /-- RD_MSR (R703) -/
  | rdMsr
  /-- WR_MSR (R704) -/
  | wrMsr (d : Byte)
  /-- RD_SCR (R508) -/
  | rdScr
  /-- WR_SCR (R509) -/
  | wrScr (d : Byte)
  /-- TICK (R1005) -/
  | tick
  /-- RESET (R1300) -/
  | reset
  /-- CRD (R1103) -/
  | crd (ao : AggregateOffset)
  /-- CWR (R1103) -/
  | cwr (ao : AggregateOffset) (d : Byte)
  /-- CTICK (R1104) -/
  | ctick
  /-- CRESET (R1105) -/
  | creset
deriving DecidableEq, Repr

/-- An operation word, addressed by the host to the stand-alone channel (13 bits, R300) or to the
composite device (15 bits, R304). Which device the host calls is not a bit of the word. -/
inductive HostWord where
  | channel (w : BitVec 13)
  | composite (w : BitVec 15)
deriving DecidableEq, Repr

/-- The assembler forms of R308 and the pseudo-instructions of R309. An offset is a number of any
size: a stand-alone channel uses its bits 2:0 only (R201). -/
inductive Asm where
  /-- `RD a` -/
  | rd (a : Nat)
  /-- `WR a, d` -/
  | wr (a : Nat) (d : Byte)
  /-- `TICK n`: n copies of `TICK` -/
  | tick (n : Nat)
  /-- `RESET` -/
  | reset
  /-- `CRD ao` -/
  | crd (ao : AggregateOffset)
  /-- `CWR ao, d` -/
  | cwr (ao : AggregateOffset) (d : Byte)
  /-- `CTICK` -/
  | ctick
  /-- `CRESET` -/
  | creset
  /-- `SETDIV d, l`; the rule gives it for an l with bit 7 clear (log entry 19) -/
  | setDiv (d : BitVec 16) (l : Byte)
  /-- `ICRW i, v, l` -/
  | icrWrite (i v l : Byte)
  /-- `ICRR i, l` -/
  | icrRead (i l : Byte)
  /-- `BANK650 l`; its expansion does not use l -/
  | bank650
  /-- `UNBANK l` -/
  | unbank (l : Byte)
deriving DecidableEq, Repr

end Sys2Proof
end

