-- ==== Sys2Proof/WellFormed.lean ====
section
/-! DEFINITION. Well-formedness: an instruction is well formed on a variant when the variant has the
register it names and its operand is one its own row of the opcode table admits (30_encoding.md
R305, R306; 40_bus_decode.md R405, R411). -/

namespace Sys2Proof

/-- The check, one line per constructor. The operand widths are checked by the types. -/
def Instr.wellFormed (v : Variant) : Instr → Bool
  | .rdRbr => true
  | .rdRbrFifo => v.fifoCap
  | .rdDll => true
  | .wrThr _ => true
  | .wrDll _ => true
  | .rdIer => true
  | .rdAsr => v.x950
  | .rdDlm => true
  | .wrIer _ => true
  | .wrDlm _ => true
  | .rdIir => true
  | .rdEfr => v.hasBank650
  | .wrFcr _ => true
  | .wrEfr _ => v.hasBank650
  | .rdLcr => true
  | .wrLcr d => !(v.hasBank650 && d == bankEntryLiteral)
  | .wrLcrBank => v.hasBank650
  | .rdMcr => true
  | .rdXon1 => v.hasBank650
  | .wrMcr _ => true
  | .wrXon1 _ => v.hasBank650
  | .rdLsr => true
  | .rdIcr => v.x950
  | .wrLsr _ => true
  | .wrIcr _ => v.x950
  | .rdMsr => true
  | .wrMsr _ => true
  | .rdScr => true
  | .wrScr _ => true
  | .tick => true
  | .reset => true
  | .crd _ => true
  | .cwr _ _ => true
  | .ctick => true
  | .creset => true

end Sys2Proof
end

