-- ==== Sys2Proof/Decode.lean ====
section
/-! DEFINITION. The decoder of operation words (30_encoding.md R300 to R307; 40_bus_decode.md R401 to
R412) and the encoder. A bus word's operation depends on the addressed channel's state (R401), so
the decoder takes a view of that state. -/

namespace Sys2Proof

/-- What the bus decode reads of a channel's state (R401): its variant, DLAB = LCR[7], `bank650`,
ACR[7] and `FifoOn()`. -/
structure DecodeView where
  variant : Variant
  dlab    : Bool
  bank    : Bool
  asr     : Bool
  fifoOn  : Bool
deriving DecidableEq, Repr

/-- The words that spell no operation (R307), each kind by its name. -/
inductive DecodeError where
  /-- a channel word with H = 1 and a host code above 0x001 -/
  | undefinedHostCode (w : BitVec 13)
  /-- a composite word with H = 1 and a code above 0x0001 -/
  | undefinedCompositeCode (w : BitVec 15)
deriving DecidableEq, Repr

/-- The full decode of R412: W, A and D to one operation. Total; offset 7 is the last case. -/
def decodeBus (v : DecodeView) (write : Bool) (a : Offset) (d : Byte) : Instr :=
  match a.toNat with
  | 0 =>
    if v.dlab then (if write then .wrDll d else .rdDll)
    else if write then .wrThr d
    else if v.fifoOn then .rdRbrFifo else .rdRbr
  | 1 =>
    if v.dlab then (if write then .wrDlm d else .rdDlm)
    else if write then .wrIer d
    else if v.variant.x950 && v.asr then .rdAsr else .rdIer
  | 2 =>
    if v.bank then (if write then .wrEfr d else .rdEfr)
    else (if write then .wrFcr d else .rdIir)
  | 3 =>
    if !write then .rdLcr
    else if v.variant.hasBank650 && d == bankEntryLiteral then .wrLcrBank
    else .wrLcr d
  | 4 =>
    if v.bank then (if write then .wrXon1 d else .rdXon1)
    else (if write then .wrMcr d else .rdMcr)
  | 5 =>
    if v.variant.x950 && v.bank then (if write then .wrIcr d else .rdIcr)
    else (if write then .wrLsr d else .rdLsr)
  | 6 => if write then .wrMsr d else .rdMsr
  | _ => if write then .wrScr d else .rdScr

/-- A channel word (R300, R301, R303): H = bit 12 first; then W = bit 11, A = bits 10:8,
D = bits 7:0, or the host code in bits 11:0. -/
def decodeChannelWord (v : DecodeView) (w : BitVec 13) : Except DecodeError Instr :=
  if w.getLsbD 12 then
    if w.extractLsb' 0 12 = 0x000#12 then .ok .tick
    else if w.extractLsb' 0 12 = 0x001#12 then .ok .reset
    else .error (.undefinedHostCode w)
  else .ok (decodeBus v (w.getLsbD 11) (w.extractLsb' 8 3) (w.extractLsb' 0 8))

/-- A composite word (R304): H = bit 14, W = bit 13, AO = bits 12:8, D = bits 7:0, or the host code in
bits 13:0. The selected child decodes AO[2:0] in its own state, when the operation runs (R1103). -/
def decodeCompositeWord (w : BitVec 15) : Except DecodeError Instr :=
  if w.getLsbD 14 then
    if w.extractLsb' 0 14 = 0x0000#14 then .ok .ctick
    else if w.extractLsb' 0 14 = 0x0001#14 then .ok .creset
    else .error (.undefinedCompositeCode w)
  else if w.getLsbD 13 then .ok (.cwr (w.extractLsb' 8 5) (w.extractLsb' 0 8))
  else .ok (.crd (w.extractLsb' 8 5))

/-- The decoder. `v` is the view of the stand-alone channel; a composite word does not read it. -/
def decode (v : DecodeView) : HostWord → Except DecodeError Instr
  | .channel w => decodeChannelWord v w
  | .composite w => decodeCompositeWord w

/-- The condition column of the opcode map (R305; the `condition` fields of
spec/opcode_table.json): the states in which a row's word decodes to the row. -/
def Instr.condition (v : DecodeView) : Instr → Bool
  | .rdRbr => !v.dlab && !v.fifoOn
  | .rdRbrFifo => !v.dlab && v.fifoOn
  | .rdDll => v.dlab
  | .wrThr _ => !v.dlab
  | .wrDll _ => v.dlab
  | .rdIer => !v.dlab && !(v.variant.x950 && v.asr)
  | .rdAsr => !v.dlab && (v.variant.x950 && v.asr)
  | .rdDlm => v.dlab
  | .wrIer _ => !v.dlab
  | .wrDlm _ => v.dlab
  | .rdIir => !v.bank
  | .rdEfr => v.bank
  | .wrFcr _ => !v.bank
  | .wrEfr _ => v.bank
  | .rdLcr => true
  | .wrLcr d => !(v.variant.hasBank650 && d == bankEntryLiteral)
  | .wrLcrBank => v.variant.hasBank650
  | .rdMcr => !v.bank
  | .rdXon1 => v.bank
  | .wrMcr _ => !v.bank
  | .wrXon1 _ => v.bank
  | .rdLsr => !(v.bank && v.variant.x950)
  | .rdIcr => v.bank && v.variant.x950
  | .wrLsr _ => !(v.bank && v.variant.x950)
  | .wrIcr _ => v.bank && v.variant.x950
  | .rdMsr => true
  | .wrMsr _ => true
  | .rdScr => true
  | .wrScr _ => true
  | .tick => true
  | .reset => true
  | .crd _ => true
  | .cwr _ _ => true
  | .ctick => true
  | .creset => true

/-- The word of a bus read at offset `a`: H = 0, W = 0, D written as 0 (R301, R302). -/
def readWord (a : Offset) : HostWord := .channel (0#1 ++ 0#1 ++ a ++ 0x00#8)

/-- The word of a bus write of `d` at offset `a`: H = 0, W = 1 (R301). -/
def writeWord (a : Offset) (d : Byte) : HostWord := .channel (0#1 ++ 1#1 ++ a ++ d)

/-- The encoder, from the pattern strings of the opcode table. -/
def encode : Instr → HostWord
  | .rdRbr => readWord 0
  | .rdRbrFifo => readWord 0
  | .rdDll => readWord 0
  | .wrThr d => writeWord 0 d
  | .wrDll d => writeWord 0 d
  | .rdIer => readWord 1
  | .rdAsr => readWord 1
  | .rdDlm => readWord 1
  | .wrIer d => writeWord 1 d
  | .wrDlm d => writeWord 1 d
  | .rdIir => readWord 2
  | .rdEfr => readWord 2
  | .wrFcr d => writeWord 2 d
  | .wrEfr d => writeWord 2 d
  | .rdLcr => readWord 3
  | .wrLcr d => writeWord 3 d
  | .wrLcrBank => writeWord 3 0xBF
  | .rdMcr => readWord 4
  | .rdXon1 => readWord 4
  | .wrMcr d => writeWord 4 d
  | .wrXon1 d => writeWord 4 d
  | .rdLsr => readWord 5
  | .rdIcr => readWord 5
  | .wrLsr d => writeWord 5 d
  | .wrIcr d => writeWord 5 d
  | .rdMsr => readWord 6
  | .wrMsr d => writeWord 6 d
  | .rdScr => readWord 7
  | .wrScr d => writeWord 7 d
  | .tick => .channel 0x1000#13
  | .reset => .channel 0x1001#13
  | .crd ao => .composite (0#1 ++ 0#1 ++ ao ++ 0x00#8)
  | .cwr ao d => .composite (0#1 ++ 1#1 ++ ao ++ d)
  | .ctick => .composite 0x4000#15
  | .creset => .composite 0x4001#15

/-- The local part of an offset the host presents: bits 2:0, the rest ignored (R201). -/
def localOffset (a : Nat) : Offset := BitVec.ofNat 3 a

/-- The expansions of R308 and R309 into operation words. DESIGN CHOICE (log entry 19): R309 gives `SETDIV d, l`
for an l with bit 7 clear and is silent on an l with bit 7 set, and it gives the ICR and bank forms for the
variants that have the bank; the expansion here is the same for every l and every variant. -/
def Asm.words : Asm → List HostWord
  | .rd a => [readWord (localOffset a)]
  | .wr a d => [writeWord (localOffset a) d]
  | .tick n => List.replicate n (encode .tick)
  | .reset => [encode .reset]
  | .crd ao => [encode (.crd ao)]
  | .cwr ao d => [encode (.cwr ao d)]
  | .ctick => [encode .ctick]
  | .creset => [encode .creset]
  | .setDiv d l =>
    [writeWord 3 (l ||| 0x80), writeWord 0 (d.extractLsb' 0 8), writeWord 1 (d.extractLsb' 8 8),
      writeWord 3 l]
  | .icrWrite i v l => [writeWord 3 0xBF, writeWord 7 i, writeWord 5 v, writeWord 3 l]
  | .icrRead i l => [writeWord 3 0xBF, writeWord 7 i, readWord 5, writeWord 3 l]
  | .bank650 => [writeWord 3 0xBF]
  | .unbank l => [writeWord 3 l]

/-- The word that `nbits` bits with value `w` are, or none if they are no word of 13 or 15 bits.
The table's rows are 13 bits (channel) or 15 bits (composite), and both are 2 whole bytes: a
16-bit value is read as a channel word where a channel word with that value exists (up to 0x1001) and
as a composite word otherwise (log entry 10). -/
def wordOfBits (nbits w : Nat) : Option HostWord :=
  if nbits = 15 ∨ (15 < nbits ∧ 0x1001 < w) then
    if w < 2 ^ 15 then some (.composite (BitVec.ofNat 15 w)) else none
  else if w < 2 ^ 13 then some (.channel (BitVec.ofNat 13 w)) else none

/-- The view of a channel just after reset (R1300): DLAB, the bank latch, ACR and FCR are 0. -/
def DecodeView.afterReset (v : Variant) : DecodeView where
  variant := v
  dlab := false
  bank := false
  asr := false
  fifoOn := false

/-- The instruction the decoder reads, in the state right after reset, from an instruction whose bits
are `w`, numbered as spec/opcode_table.json numbers them. -/
def decodeTableWord (nbits w : Nat) : Option Instr :=
  match wordOfBits nbits w with
  | none => none
  | some word =>
    match decode (.afterReset Config.defaultParams.variant) word with
    | .ok i => some i
    | .error _ => none

end Sys2Proof
end

