-- ==== Sys2Proof/Machine/State.lean ====
section
/-! DEFINITION. Everything the spec gives the machine (10_state.md R100 to R134; 47_composite.md), as plain
data, and the state right after creation and reset (70_reset_and_hazards.md R1300, R1302). -/

namespace Sys2Proof.Machine

/-- Byte storage by index (the ICR array R118, the FIFO buffers R126, R127): the listed indices in
rising order, none of them 0x00; an unlisted index reads as 0x00 (R134). -/
abbrev Memory := List Host.Cell

/-- A circular buffer (R126, R127, R902). -/
structure Fifo where
  /-- `rxbuf` or `txbuf` -/
  buf   : Memory
  /-- index of the oldest byte -/
  head  : Nat
  /-- next free index -/
  tail  : Nat
  /-- occupancy -/
  count : Nat
deriving DecidableEq, Repr

/-- One channel: configuration (R100), registers (R104 to R124) and hidden state (R125 to R132). -/
structure Channel where
  /-- the immutable configuration (R100); no operation writes it -/
  cfg : ChannelConfig
  /-- R104 -/
  rbr : Byte
  /-- R105 -/
  thr : Byte
  /-- R105: THR holds a byte waiting for the TSR -/
  thrPending : Bool
  /-- R106 -/
  ier : Byte
  /-- R107: the stored nibble `IIR_ID` -/
  iirId : BitVec 4
  /-- R108 -/
  fcr : Byte
  /-- R109 -/
  lcr : Byte
  /-- R110 -/
  mcr : Byte
  /-- R111 -/
  lsr : Byte
  /-- R112 -/
  msr : Byte
  /-- R113 -/
  scr : Byte
  /-- R114 -/
  dll : Byte
  /-- R114 -/
  dlm : Byte
  /-- R115 -/
  bank650 : Bool
  /-- R116 -/
  efr : Byte
  /-- R117 -/
  xon1 : Byte
  /-- R118: `ICR[0..255]` -/
  icr : Memory
  /-- R125: bit 0 RDA, 1 THRE, 2 RLS, 3 MS, 4 the character-timeout marker -/
  pending : BitVec 5
  /-- R126: the receive FIFO -/
  rx : Fifo
  /-- R127: the transmit FIFO -/
  tx : Fifo
  /-- R128 -/
  tsrBusy : Bool
  /-- R128 -/
  tsrByte : Byte
  /-- R128: the remaining-bit countdown -/
  txBits : Nat
  /-- R129: the modem input-line latches DCD, RI, DSR and CTS -/
  latches : ModemLines
  /-- R131 -/
  baudCnt : Nat
  /-- R131 -/
  toArmed : Bool
  /-- R131 -/
  toCnt : Nat
  /-- R132 -/
  intLine : Bool
  /-- The model's own field (log entry 8): the answers the host's receive callback will give this
  channel, the next one first, then `NONE` forever (`RXQ`, R308). It is the machine's only input. -/
  rxIn : List (Option Byte)
  /-- The model's own field (log entry 6): how many free values this channel has drawn. -/
  draws : Nat
deriving DecidableEq, Repr

/-- A host callback with its arguments (R12, R1212). -/
inductive Event where
  /-- `interrupt_line(channel, asserted)` -/
  | interruptLine (h : Handle) (asserted : Bool)
  /-- `receive_byte(channel, sub-channel)` and the host's answer -/
  | receiveByte (h : Handle) (sub : Nat) (answer : Option Byte)
  /-- `transmit_byte(channel, sub-channel, byte)` -/
  | transmitByte (h : Handle) (sub : Nat) (b : Byte)
deriving DecidableEq, Repr

/-- A composite device: its children in enumeration order, and nothing else (R1100). -/
inductive Composite where
  | dual (c0 c1 : Channel)
  | quad (c0 c1 c2 c3 : Channel)
deriving DecidableEq, Repr

/-- The machine: one stand-alone channel, one composite device, and the host's side of the run. -/
structure State where
  /-- the stand-alone channel (R1) -/
  chan : Channel
  /-- the composite device (R1100) -/
  comp : Composite
  /-- the host's remaining operations, the next one first: the machine's "program" (R103) -/
  program : List HostWord
  /-- the index into the host's sequence of operations (R103) -/
  pos : Nat
  /-- every callback so far, the oldest first (R12, R208) -/
  events : List Event
  /-- the value the last operation returned to the host: some byte for a bus read, none for any other
  operation (R302, R1212) -/
  result : Option Byte
deriving DecidableEq, Repr

/-- A host call on one channel while it runs: the channel, the callbacks so far and the value to return. -/
structure Call where
  ch : Channel
  events : List Event
  result : Option Byte
deriving DecidableEq, Repr

/-- Why the machine stops with a fault: never. "No host operation raises an exception, returns an error or
fails" (R1200), so there is no reason, and the type has no constructor. -/
inductive Fault where
deriving DecidableEq, Repr

/-- Why a step gives no next state. -/
inductive Refusal where
  /-- Raised by `exec` for an operation that has no meaning yet. Safe. -/
  | notModelled (mnemonic : String)
  /-- Raised by `step` for a channel word with H = 1 whose code spells no operation (R307: "a model
  refuses them"). Safe. -/
  | undefinedHostCode (w : BitVec 13)
  /-- Raised by `step` for a composite word with H = 1 whose code spells no operation (R307). Safe. -/
  | undefinedCompositeCode (w : BitVec 15)
  /-- Raised by `step` when the host issues no further operation: a channel "steps only when the host calls
  it" (R10). Safe. -/
  | noHostOperation
deriving DecidableEq, Repr

/-- The ICR array after reset on `X950`: CPR, CKS and the identification block (R1300). -/
def initialIcr (g : ChannelConfig) : Memory :=
  [(0x01, 0x20#8), (0x03, g.cksReset), (0x08, g.id1), (0x09, g.id2), (0x0A, g.id3), (0x0B, g.rev)].filter
    (fun cell => cell.2 != 0x00#8)

/-- The state of a newly created channel (R134, R1300, R1302). An element the variant lacks holds 0. -/
def Channel.initial (g : ChannelConfig) : Channel where
  cfg := g
  rbr := 0x00
  thr := 0x00
  thrPending := false
  ier := 0x00
  iirId := 0b0001
  fcr := 0x00
  lcr := 0x00
  mcr := 0x00
  lsr := 0x60
  msr := g.modemIn.bits ++ 0x0#4
  scr := 0x00
  dll := 0x01
  dlm := 0x00
  bank650 := false
  efr := 0x00
  xon1 := 0x00
  icr := if g.variant.x950 then initialIcr g else []
  pending := 0
  rx := ⟨[], 0, 0, 0⟩
  tx := ⟨[], 0, 0, 0⟩
  tsrBusy := false
  tsrByte := 0x00
  txBits := 0
  latches := g.modemIn
  baudCnt := 1
  toArmed := false
  toCnt := 0
  intLine := false
  rxIn := []
  draws := 0

/-- The machine right after creation, which performs the reset (R1302, R1107), with the creation
parameters of log entries 1 to 5: a stand-alone channel and a quad device, each channel a `V16950`. Each
creation has made its `interrupt_line(channel, false)` call. No operation is waiting. -/
def State.reset : State where
  chan := Channel.initial (Config.standalone Config.defaultShared Config.defaultParams)
  comp := .quad
    (Channel.initial (Config.child Config.defaultShared 0 Config.defaultParams))
    (Channel.initial (Config.child Config.defaultShared 1 Config.defaultParams))
    (Channel.initial (Config.child Config.defaultShared 2 Config.defaultParams))
    (Channel.initial (Config.child Config.defaultShared 3 Config.defaultParams))
  program := []
  pos := 0
  events := [.interruptLine .standalone false, .interruptLine (.child 0) false,
    .interruptLine (.child 1) false, .interruptLine (.child 2) false, .interruptLine (.child 3) false]
  result := none

end Sys2Proof.Machine
end

