-- ==== Sys2Proof/Machine/Operands.lean ====
section
/-! DEFINITION. Bit fields, and every quantity the rules derive from the registers: write masks,
the discipline and trigger level, the timer's derived quantities, the disables, the composite's
address decode. -/

namespace Sys2Proof.Machine

/-- `v[i] <- x` on a byte (R8, R9). -/
def setBit (v : Byte) (i : Nat) (x : Bool) : Byte :=
  if x then v ||| (1#8 <<< i) else v &&& ~~~(1#8 <<< i)

/-- ICR[i], an unlisted index being 0x00 (R118). -/
def Memory.read (m : Memory) (a : Nat) : Byte :=
  match m with
  | [] => 0x00
  | (x, v) :: rest => if x = a then v else Memory.read rest a

/-- Store a byte, keeping the canonical form. -/
def Memory.write (m : Memory) (a : Nat) (b : Byte) : Memory :=
  match m with
  | [] => if b = 0x00 then [] else [(a, b)]
  | (x, v) :: rest =>
    if a < x then (if b = 0x00 then (x, v) :: rest else (a, b) :: (x, v) :: rest)
    else if a = x then (if b = 0x00 then rest else (a, b) :: rest)
    else (x, v) :: Memory.write rest a b

/-- Every listed address is at least `lo` and below the next one, and no listed byte is 0x00. -/
def Memory.wfFrom (lo : Nat) : Memory → Bool
  | [] => true
  | (x, v) :: rest => decide (lo ≤ x) && (v != 0x00) && Memory.wfFrom (x + 1) rest

/-- The canonical form: addresses strictly rising and no entry equal to what an unlisted address
reads as. -/
def Memory.wf (m : Memory) : Bool := Memory.wfFrom 0 m

/-- ICR index of ACR (R119). -/
def icrAcr : Nat := 0x00
/-- ICR index of CPR (R120). -/
def icrCpr : Nat := 0x01
/-- ICR index of CKS (R123). -/
def icrCks : Nat := 0x03
/-- ICR index of CSR (R122). -/
def icrCsr : Nat := 0x0C

/-- The identification block ICR[0x08..0x0B] (R121). -/
def isIdIndex (i : Nat) : Bool := decide (0x08 ≤ i) && decide (i ≤ 0x0B)

/-- ACR (R119). -/
def Channel.acr (c : Channel) : Byte := Memory.read c.icr icrAcr

/-- CPR (R120). -/
def Channel.cpr (c : Channel) : Byte := Memory.read c.icr icrCpr

/-- `FifoOn()` (R900). -/
def Channel.fifoOn (c : Channel) : Bool := c.cfg.variant.fifoCap && c.fcr.getLsbD 0

/-- `Depth` (R901). -/
def Channel.depth (c : Channel) : Nat := c.cfg.variant.depth

/-- `TrigLevel()` = [1, 4, 8, 14][FCR[7:6]] (R901). -/
def Channel.trigLevel (c : Channel) : Nat :=
  match (c.fcr.extractLsb' 6 2).toNat with
  | 0 => 1
  | 1 => 4
  | 2 => 8
  | _ => 14

/-- What the bus decode reads (R401). -/
def Channel.view (c : Channel) : DecodeView where
  variant := c.cfg.variant
  dlab := c.lcr.getLsbD 7
  bank := c.bank650
  asr := c.acr.getLsbD 7
  fifoOn := c.fifoOn

/-- The byte an IER write stores (R106, R602). -/
def storedIer (v : Variant) (d : Byte) : Byte := if v.ext then d else d &&& 0x0F

/-- The byte an MCR write stores (R110, R612). -/
def storedMcr (v : Variant) (d : Byte) : Byte := if v.ext then d else d &&& 0x1F

/-- The byte an FCR write stores: bits 1 and 2 are self-clearing (R108, R605). -/
def storedFcr (d : Byte) : Byte := d &&& 0xF9

/-- `FrameBits(L)`: start + data + parity + stop (R1000). -/
def frameBits (l : Byte) : Nat :=
  1 + (5 + (l.extractLsb' 0 2).toNat) + (l.getLsbD 3).toNat + (1 + (l.getLsbD 2).toNat)

/-- `DL = DLM ++ DLL` (R114, R202). -/
def Channel.divisor (c : Channel) : BitVec 16 := c.dlm ++ c.dll

/-- `DivisorEff()`: a divisor of 0 counts as 1 (R1001). -/
def Channel.divisorEff (c : Channel) : Nat :=
  if c.divisor.toNat = 0 then 1 else c.divisor.toNat

/-- `PrescaleOn()` (R1002). -/
def Channel.prescaleOn (c : Channel) : Bool := c.cfg.variant.x950 && c.mcr.getLsbD 7

/-- `P8()`: the prescale factor in eighths (R1003). -/
def prescaleEighths (cpr : Byte) : Nat :=
  if (cpr.extractLsb' 3 5).toNat = 0 then 8 + (cpr.extractLsb' 0 3).toNat else cpr.toNat

/-- `BaudConst()`: base ticks per service step (R1004). -/
def Channel.baudConst (c : Channel) : Nat :=
  if c.prescaleOn then (c.divisorEff * prescaleEighths c.cpr) / 8 else c.divisorEff

/-- `TimeoutTicks()`: four character times in base ticks (R1008). -/
def Channel.timeoutTicks (c : Channel) : Nat := 4 * frameBits c.lcr * c.baudConst

/-- `RxDisabled()` (R1007). -/
def Channel.rxDisabled (c : Channel) : Bool := c.cfg.variant.x950 && c.acr.getLsbD 0

/-- `TxDisabled()` (R1007). -/
def Channel.txDisabled (c : Channel) : Bool := c.cfg.variant.x950 && c.acr.getLsbD 1

/-- The four lines DTR, RTS, OUT1 and OUT2, a function of MCR (R130). -/
structure OutputLines where
  dtr  : Bool
  rts  : Bool
  out1 : Bool
  out2 : Bool
deriving DecidableEq, Repr

/-- The derived output line state (R130). It drives no callback. -/
def Channel.outputLines (c : Channel) : OutputLines where
  dtr := c.mcr.getLsbD 0
  rts := c.mcr.getLsbD 1
  out1 := c.mcr.getLsbD 2
  out2 := c.mcr.getLsbD 3

/-- The channel-local offset `off` = AO[2:0] (R1102). -/
def localOf (ao : AggregateOffset) : Offset := ao.extractLsb' 0 3

/-- The number of children N (R1100). -/
def Composite.size : Composite → Nat
  | .dual _ _ => 2
  | .quad _ _ _ _ => 4

/-- The child's ordinal `ch`: AO[3] on the dual (AO[4] is ignored), AO[4:3] on the quad (R1102). -/
def Composite.childIndex (d : Composite) (ao : AggregateOffset) : Nat :=
  match d with
  | .dual _ _ => (ao.extractLsb' 3 1).toNat
  | .quad _ _ _ _ => (ao.extractLsb' 3 2).toNat

/-- The children in enumeration order (R1101). -/
def Composite.children : Composite → List Channel
  | .dual c0 c1 => [c0, c1]
  | .quad c0 c1 c2 c3 => [c0, c1, c2, c3]

/-- Child `i`, or none where the device has no such child. -/
def Composite.childAt (d : Composite) (i : Nat) : Option Channel := d.children[i]?

end Sys2Proof.Machine
end

