-- ==== Sys2Proof/Machine/Flags.lean ====
section
/-! DEFINITION. The flag computations, without callbacks: the interrupt identification (R803, R804, R809),
THRE and TEMT (R903), the forced and cleared LSR bits (R701, R702), the modem lines and deltas (R705). -/

namespace Sys2Proof.Machine

/-- `SRC_RDA` (R800). -/
def srcRda : BitVec 5 := 0x01
/-- `SRC_THRE` (R800). -/
def srcThre : BitVec 5 := 0x02
/-- `SRC_RLS` (R800). -/
def srcRls : BitVec 5 := 0x04
/-- `SRC_MS` (R800). -/
def srcMs : BitVec 5 := 0x08
/-- `SRC_CTI`: the overlap of bit 0 and bit 4 is kept literally (R800, decision D3). -/
def srcCti : BitVec 5 := 0x11

/-- The delivered set `act = pending[3:0] & IER[3:0]` (R803). -/
def deliveredSet (pending : BitVec 5) (ier : Byte) : BitVec 4 :=
  pending.extractLsb' 0 4 &&& ier.extractLsb' 0 4

/-- The identification nibble, by the fixed priority RLS, RDA (or CTI by the marker), THRE, MS
(R804, R805). -/
def identification (pending : BitVec 5) (ier : Byte) : BitVec 4 :=
  let act := deliveredSet pending ier
  if act = 0 then 0b0001
  else if act.getLsbD 2 then 0b0110
  else if act.getLsbD 0 then (if pending.getLsbD 4 then 0b1100 else 0b0100)
  else if act.getLsbD 1 then 0b0010
  else 0b0000

/-- The level of the interrupt output (R804). -/
def interruptLevel (pending : BitVec 5) (ier : Byte) : Bool := deliveredSet pending ier != 0

/-- `IIRValue()` (R809). -/
def Channel.iirValue (c : Channel) : Byte :=
  (if c.fifoOn then 0xC0 else 0x00) ||| c.iirId.setWidth 8

/-- THRE: the holding register, or in the FIFO discipline the transmit FIFO, is empty (R903). -/
def Channel.holdingEmpty (c : Channel) : Bool :=
  if c.fifoOn then c.tx.count == 0 else !c.tsrBusy && !c.thrPending

/-- TEMT: no byte in the transmitter at all (R903). -/
def Channel.transmitterEmpty (c : Channel) : Bool :=
  if c.fifoOn then c.holdingEmpty && !c.tsrBusy else c.holdingEmpty

/-- The LSR an LSR read leaves: OE, PE, FE and BI cleared (R701, decision D17). -/
def lsrAfterRead (lsr : Byte) : Byte := lsr &&& ~~~0x1E#8

/-- The LSR a forced write leaves: bits 4:0 from the data, bits 7:5 kept (R702, decision D16). -/
def forcedLsr (lsr d : Byte) : Byte := (lsr &&& 0xE0) ||| (d &&& 0x1F)

/-- The sources a forced LSR write makes pending (R702). -/
def forcedLsrSources (d : Byte) : BitVec 5 :=
  (if d.getLsbD 0 then srcRda else 0) ||| (if d.extractLsb' 1 4 ≠ 0 then srcRls else 0)

/-- The line bits `nl`: the latches, or in loopback DCD from OUT2, RI from OUT1, DSR from DTR and CTS
from RTS (R705, decision D13). -/
def Channel.lineBits (c : Channel) : BitVec 4 :=
  if c.mcr.getLsbD 4 then
    BitVec.ofBool (c.mcr.getLsbD 3) ++ BitVec.ofBool (c.mcr.getLsbD 2) ++
      BitVec.ofBool (c.mcr.getLsbD 0) ++ BitVec.ofBool (c.mcr.getLsbD 1)
  else c.latches.bits

/-- The deltas `chg` between old and new line bits; RI counts only when it falls (R705). -/
def lineDeltas (ol nl : BitVec 4) : BitVec 4 :=
  if !ol.getLsbD 2 && nl.getLsbD 2 then (ol ^^^ nl) &&& 0b1011 else ol ^^^ nl

end Sys2Proof.Machine
end

