-- ==== Sys2Proof/Machine/Ops.lean ====
section
/-! DEFINITION. The shared operations: a host call on a channel, the interrupt arbiter
(44_interrupt_arbiter.md), the circular buffers (R902), and a host call on the machine's devices.
The hardware takes no exception (R1200); what the spec describes in its place is the interrupt output's
delivery, `recompute` (R804, R1204), and there is no return operation (R1205). -/

namespace Sys2Proof.Machine

/-- Change the channel; nothing is called back. -/
def Call.modify (k : Call) (f : Channel → Channel) : Call := { k with ch := f k.ch }

/-- Record a host callback (R12, R208). -/
def Call.emit (k : Call) (e : Event) : Call := { k with events := k.events ++ [e] }

/-- `return v`: the value a bus read gives the host (R9). -/
def Call.ret (k : Call) (v : Byte) : Call := { k with result := some v }

/-- The channel with its identification and interrupt level computed from `pending` and IER
(R804, R808). -/
def Channel.identified (c : Channel) : Channel :=
  { c with
    iirId := identification c.pending c.ier
    intLine := interruptLevel c.pending c.ier }

/-- `Recompute()` (R804): identify the highest-priority delivered source, drive the level, and call
`interrupt_line(channel, int_line)`, whether or not the level changed (R806). -/
def recompute (k : Call) : Call :=
  (k.modify Channel.identified).emit
    (.interruptLine k.ch.cfg.handle (interruptLevel k.ch.pending k.ch.ier))

/-- `Trigger(src)` (R801). -/
def trigger (src : BitVec 5) (k : Call) : Call :=
  recompute (k.modify fun c => { c with pending := c.pending ||| src })

/-- `Clear(src)` (R802). -/
def clear (src : BitVec 5) (k : Call) : Call :=
  recompute (k.modify fun c => { c with pending := c.pending &&& ~~~src })

/-- `Push(X, b)` on a buffer of `depth` bytes (R902); callers guarantee `count < depth`. -/
def Fifo.push (depth : Nat) (f : Fifo) (b : Byte) : Fifo where
  buf := Memory.write f.buf f.tail b
  head := f.head
  tail := (f.tail + 1) % depth
  count := f.count + 1

/-- The byte `Pop(X)` returns: the oldest (R902). -/
def Fifo.front (f : Fifo) : Byte := Memory.read f.buf f.head

/-- The buffer after `Pop(X)` (R902); callers guarantee `0 < count`. The byte stays in the buffer. -/
def Fifo.pop (depth : Nat) (f : Fifo) : Fifo where
  buf := f.buf
  head := (f.head + 1) % depth
  tail := f.tail
  count := f.count - 1

/-- The flush of R913 and R914: the indices and the count to 0; the bytes stay in the buffer. -/
def Fifo.flush (f : Fifo) : Fifo where
  buf := f.buf
  head := 0
  tail := 0
  count := 0

/-- The answers of `RXQ b1, b2, ...`: the host gives these bytes to successive receive calls, then `NONE`
forever (R308). -/
def Channel.rxq (c : Channel) (bytes : List Byte) : Channel := { c with rxIn := bytes.map some }

/-- Run a host call on the stand-alone channel (R206: to completion, callbacks included). -/
def State.onChannel (s : State) (op : Call → Call) : State :=
  let k := op ⟨s.chan, s.events, none⟩
  { s with chan := k.ch, events := k.events, result := k.result }

/-- The child an aggregate offset selects (R1102). -/
def Composite.selected (d : Composite) (ao : AggregateOffset) : Channel :=
  match d with
  | .dual c0 c1 => if ao.getLsbD 3 then c1 else c0
  | .quad c0 c1 c2 c3 =>
    if ao.getLsbD 4 then (if ao.getLsbD 3 then c3 else c2) else (if ao.getLsbD 3 then c1 else c0)

/-- The device with the selected child replaced; no other child changes (R1103, R1106). -/
def Composite.replace (d : Composite) (ao : AggregateOffset) (c : Channel) : Composite :=
  match d with
  | .dual c0 c1 => if ao.getLsbD 3 then .dual c0 c else .dual c c1
  | .quad c0 c1 c2 c3 =>
    if ao.getLsbD 4 then (if ao.getLsbD 3 then .quad c0 c1 c2 c else .quad c0 c1 c c3)
    else (if ao.getLsbD 3 then .quad c0 c c2 c3 else .quad c c1 c2 c3)

/-- Run a host call on the child the aggregate offset selects (R1103). -/
def State.onSelected (s : State) (ao : AggregateOffset) (op : Call → Call) : State :=
  let k := op ⟨s.comp.selected ao, s.events, none⟩
  { s with comp := s.comp.replace ao k.ch, events := k.events, result := k.result }

/-- Run a call on every child in enumeration order, each to completion before the next begins
(R1104, R1105). -/
def State.onEveryChild (s : State) (op : Call → Call) : State :=
  match s.comp with
  | .dual c0 c1 =>
    let k0 := op ⟨c0, s.events, none⟩
    let k1 := op ⟨c1, k0.events, none⟩
    { s with comp := .dual k0.ch k1.ch, events := k1.events, result := none }
  | .quad c0 c1 c2 c3 =>
    let k0 := op ⟨c0, s.events, none⟩
    let k1 := op ⟨c1, k0.events, none⟩
    let k2 := op ⟨c2, k1.events, none⟩
    let k3 := op ⟨c3, k2.events, none⟩
    { s with comp := .quad k0.ch k1.ch k2.ch k3.ch, events := k3.events, result := none }

end Sys2Proof.Machine
end

