-- ==== Sys2Proof/Machine/Reset.lean ====
section
/-! DEFINITION. The reset routine (70_reset_and_hazards.md R1300 to R1305) and the creation of devices
(R1302; 47_composite.md R1100, R1101, R1107). -/

namespace Sys2Proof.Machine

/-- The assignments of R1300, in its order, before the final `Recompute`. Configuration is not touched;
neither are the host's future answers and the draw counter, which are no state of the channel (log
entries 6 and 8). -/
def resetRegisters (c : Channel) : Channel :=
  let v := c.cfg.variant
  { c with
    rbr := 0x00
    thr := 0x00
    thrPending := false
    ier := 0x00
    fcr := if v.fifoCap then 0x00 else c.fcr
    lcr := 0x00
    mcr := 0x00
    lsr := 0x60
    scr := 0x00
    dll := 0x01
    dlm := 0x00
    bank650 := if v.hasBank650 then false else c.bank650
    efr := if v.hasBank650 then 0x00 else c.efr
    xon1 := if v.hasBank650 then 0x00 else c.xon1
    icr := if v.x950 then initialIcr c.cfg else c.icr
    pending := 0
    rx := if v.fifoCap then ⟨[], 0, 0, 0⟩ else c.rx
    tx := if v.fifoCap then ⟨[], 0, 0, 0⟩ else c.tx
    tsrBusy := false
    tsrByte := 0x00
    txBits := 0
    latches := c.cfg.modemIn
    msr := c.cfg.modemIn.bits ++ 0x0#4
    baudCnt := 1
    toArmed := false
    toCnt := 0 }

/-- `Reset()` (R1300): its last event is `interrupt_line(channel, false)` (R1305). -/
def resetCall (k : Call) : Call := recompute (k.modify resetRegisters)

/-- Creation of a channel (R1302): a blank channel with its configuration, then the reset routine. -/
def createCall (g : ChannelConfig) (events : List Event) : Call :=
  resetCall ⟨Channel.initial g, events, none⟩

/-- Creation of a dual device: its children in order (R1107). -/
def createDual (sh : SharedParams) (p0 p1 : ChildParams) (events : List Event) :
    Composite × List Event :=
  let k0 := createCall (Config.child sh 0 p0) events
  let k1 := createCall (Config.child sh 1 p1) k0.events
  (.dual k0.ch k1.ch, k1.events)

/-- Creation of a quad device: its children in order (R1107). -/
def createQuad (sh : SharedParams) (p0 p1 p2 p3 : ChildParams) (events : List Event) :
    Composite × List Event :=
  let k0 := createCall (Config.child sh 0 p0) events
  let k1 := createCall (Config.child sh 1 p1) k0.events
  let k2 := createCall (Config.child sh 2 p2) k1.events
  let k3 := createCall (Config.child sh 3 p3) k2.events
  (.quad k0.ch k1.ch k2.ch k3.ch, k3.events)

/-- The creation parameters of a whole machine (log entry 1). -/
inductive CompositeParams where
  | dual (sh : SharedParams) (p0 p1 : ChildParams)
  | quad (sh : SharedParams) (p0 p1 p2 p3 : ChildParams)
deriving DecidableEq, Repr

/-- The machine right after the host has created the stand-alone channel and then the composite, with any
parameters. -/
def State.create (sh : SharedParams) (p : ChildParams) (q : CompositeParams) : State :=
  let k := createCall (Config.standalone sh p) []
  let d := match q with
    | .dual shc p0 p1 => createDual shc p0 p1 k.events
    | .quad shc p0 p1 p2 p3 => createQuad shc p0 p1 p2 p3 k.events
  { chan := k.ch, comp := d.1, program := [], pos := 0, events := d.2, result := none }

end Sys2Proof.Machine
end

