-- ==== Sys2Proof/Machine/Pipeline.lean ====
section
/-! DEFINITION. The RX/TX pipeline (45_rxtx_pipeline.md) and the timeout's arming (46_timer_engine.md R1009),
one definition per procedure of the spec. -/

namespace Sys2Proof.Machine

/-- `ArmTimeout()` (R1009): always the full length, from LCR and the divisor as they are now. -/
def armTimeout (c : Channel) : Channel := { c with toArmed := true, toCnt := c.timeoutTicks }

/-- `DisarmTimeout()` (R1009). -/
def disarmTimeout (c : Channel) : Channel := { c with toArmed := false, toCnt := 0 }

/-- The LSR with bits 5 and 6 at the transmitter's occupancy (R903). -/
def Channel.lsrWithTxFlags (c : Channel) : Byte :=
  setBit (setBit c.lsr 5 c.holdingEmpty) 6 c.transmitterEmpty

/-- `UpdateTxFlags()` (R903): THRE is raised as a source only when LSR[5] rises. -/
def updateTxFlags (k : Call) : Call :=
  let k1 := k.modify fun c => { c with lsr := c.lsrWithTxFlags }
  if !k.ch.lsr.getLsbD 5 && k.ch.holdingEmpty then trigger srcThre k1 else k1

/-- `TxStart(b)` (R904): the frame count is taken when the byte is loaded. -/
def txStart (b : Byte) (c : Channel) : Channel :=
  { c with tsrByte := b, tsrBusy := true, txBits := frameBits c.lcr }

/-- `TxStart(Pop(tx))` where the transmit FIFO holds a byte (R902, R904). -/
def txStartFromFifo (c : Channel) : Channel :=
  if 0 < c.tx.count then txStart c.tx.front { c with tx := c.tx.pop c.depth } else c

/-- `TxWriteUnbuf(v)` (R905): one repeat slot, overwritten by a later write. -/
def txWriteUnbuf (v : Byte) (k : Call) : Call :=
  let k1 := clear srcThre (k.modify fun c => { c with thr := v })
  updateTxFlags (k1.modify fun c =>
    if c.tsrBusy then { c with thrPending := true } else txStart v c)

/-- `TxWriteFifo(v)` (R906): a byte written into a full FIFO is discarded. -/
def txWriteFifo (v : Byte) (k : Call) : Call :=
  let k1 := clear srcThre (k.modify fun c =>
    { c with thr := v, lsr := setBit (setBit c.lsr 5 false) 6 false })
  let k2 := k1.modify fun c =>
    if c.tx.count < c.depth then { c with tx := c.tx.push c.depth v } else c
  updateTxFlags (k2.modify fun c => if c.tsrBusy then c else txStartFromFifo c)

/-- `TxComplete()` (R907): the callback fires before the flags change. -/
def txComplete (k : Call) : Call :=
  let k1 := (k.emit (.transmitByte k.ch.cfg.handle k.ch.cfg.sub k.ch.tsrByte)).modify fun c =>
    { c with tsrBusy := false, txBits := 0 }
  updateTxFlags (k1.modify fun c =>
    if c.fifoOn then txStartFromFifo c
    else if c.thrPending then txStart c.thr { c with thrPending := false }
    else c)

/-- `TxServiceStep()` (R908): one bit. -/
def txServiceStep (k : Call) : Call :=
  if k.ch.tsrBusy then
    let k1 := k.modify fun c => { c with txBits := c.txBits - 1 }
    if k1.ch.txBits = 0 then txComplete k1 else k1
  else k

/-- `RxAcceptUnbuf(b)` (R909): an unread byte is kept and overrun is set. -/
def rxAcceptUnbuf (b : Byte) (k : Call) : Call :=
  if k.ch.lsr.getLsbD 0 then
    trigger srcRls (k.modify fun c => { c with lsr := setBit c.lsr 1 true })
  else
    trigger srcRda (k.modify fun c => { c with rbr := b, lsr := setBit c.lsr 0 true })

/-- `RxAcceptFifo(b)` (R910): a byte that finds the FIFO full is discarded and overrun is set. -/
def rxAcceptFifo (b : Byte) (k : Call) : Call :=
  if k.ch.rx.count = k.ch.depth then
    trigger srcRls (k.modify fun c => { c with lsr := setBit c.lsr 1 true })
  else
    let k1 := k.modify fun c =>
      armTimeout { c with rx := c.rx.push c.depth b, lsr := setBit c.lsr 0 true }
    if k1.ch.trigLevel ≤ k1.ch.rx.count then trigger srcRda k1 else k1

/-- The answer of the receive callback's next call: the next one the host has ready, else `NONE`
(R12, R308, log entry 8). -/
def Channel.nextAnswer (c : Channel) : Option Byte := c.rxIn.headD none

/-- `CallRx(SUB)` (R9, R911): the call is made and its answer used up. -/
def callRx (k : Call) : Call :=
  (k.emit (.receiveByte k.ch.cfg.handle k.ch.cfg.sub k.ch.nextAnswer)).modify fun c =>
    { c with rxIn := c.rxIn.tail }

/-- What a receive-service step does with the callback's answer (R911). -/
def rxAccept (answer : Option Byte) (k : Call) : Call :=
  match answer with
  | none => k
  | some b => if k.ch.fifoOn then rxAcceptFifo b k else rxAcceptUnbuf b k

/-- `RxServiceStep()` (R911): the callback is polled once; `NONE` changes nothing. -/
def rxServiceStep (k : Call) : Call := rxAccept k.ch.nextAnswer (callRx k)

/-- The value of a FIFO pop: the oldest byte, or on an empty FIFO a free value (R912, U1). -/
def Channel.popValue (c : Channel) : Byte :=
  if 0 < c.rx.count then c.rx.front else Config.emptyPopByte c.cfg.handle c.draws

/-- The receive FIFO after a pop; an empty one is left as it is and the draw is counted. -/
def popRx (c : Channel) : Channel :=
  if 0 < c.rx.count then { c with rx := c.rx.pop c.depth } else { c with draws := c.draws + 1 }

/-- The sources after a pop: both bits of CTI removed, RDA set again at or above the trigger level
(R912, decision D24). -/
def Channel.pendingAfterPop (c : Channel) : BitVec 5 :=
  if c.trigLevel ≤ c.rx.count then (c.pending &&& ~~~srcCti) ||| srcRda else c.pending &&& ~~~srcCti

/-- DR and the timeout after a pop (R912). -/
def settleRx (c : Channel) : Channel :=
  if c.rx.count = 0 then disarmTimeout { c with lsr := setBit c.lsr 0 false } else armTimeout c

/-- `RxPop()` (R912). -/
def rxPop (k : Call) : Call :=
  let v := k.ch.popValue
  let k1 := k.modify popRx
  let k2 := k1.modify fun c => { c with pending := c.pendingAfterPop }
  (recompute (k2.modify settleRx)).ret v

/-- `RxFlush()` (R913); the caller recomputes. -/
def rxFlush (k : Call) : Call :=
  k.modify fun c =>
    { disarmTimeout { c with rx := c.rx.flush, lsr := setBit c.lsr 0 false } with
      pending := c.pending &&& ~~~srcCti }

/-- `TxFlush()` (R914); the byte in the TSR is not affected. -/
def txFlush (k : Call) : Call :=
  updateTxFlags (k.modify fun c => { c with tx := c.tx.flush, thrPending := false })

end Sys2Proof.Machine
end

