-- ==== Sys2Proof/Machine/Timer.lean ====
section
/-! DEFINITION. The baud and timer engine (46_timer_engine.md): the timeout step, the base tick, the
divisor's reprogramming. -/

namespace Sys2Proof.Machine

/-- `TimeoutStep()` (R1010): active only in the FIFO discipline, fires once per arming. -/
def timeoutStep (k : Call) : Call :=
  if k.ch.toArmed && k.ch.fifoOn then
    let k1 := k.modify fun c => { c with toCnt := c.toCnt - 1 }
    if k1.ch.toCnt = 0 then trigger srcCti (k1.modify fun c => { c with toArmed := false }) else k1
  else k

/-- The service step (R1005, R1007): receive before transmit, each unless disabled, then the
countdown's reload. -/
def serviceStep (k : Call) : Call :=
  let k1 := if k.ch.rxDisabled then k else rxServiceStep k
  let k2 := if k1.ch.txDisabled then k1 else txServiceStep k1
  k2.modify fun c => { c with baudCnt := c.baudConst }

/-- `Tick()`: one base tick (R1005); the timeout countdown runs first. -/
def tickCall (k : Call) : Call :=
  let k1 := (timeoutStep k).modify fun c => { c with baudCnt := c.baudCnt - 1 }
  if k1.ch.baudCnt = 0 then serviceStep k1 else k1

/-- `DivisorReprogram()` (R1011): a byte in the TSR completes at once, then the countdown is reloaded with
the new divisor. -/
def divisorReprogram (k : Call) : Call :=
  let k1 := if k.ch.tsrBusy then txComplete k else k
  k1.modify fun c => { c with baudCnt := c.baudConst }

end Sys2Proof.Machine
end

