-- ==== Sys2Proof/Machine/ControlRegs.lean ====
section
/-! DEFINITION. The control registers (42_control_registers.md R601 to R616). -/

namespace Sys2Proof.Machine

/-- RD_IER (R601), on one channel. -/
def rdIerCall (k : Call) : Call := k.ret k.ch.ier

/-- R601 on the stand-alone channel. -/
def execRdIer (s : State) : Host.Outcome State Fault Refusal := .next (s.onChannel rdIerCall)

/-- WR_IER: with ETBEI set and THRE empty the THRE source is raised, on every such write (R602), on one channel. -/
def wrIerCall (d : Byte) (k : Call) : Call := 
  let k1 := k.modify fun c => { c with ier := storedIer c.cfg.variant d }
  if k1.ch.ier.getLsbD 1 && k1.ch.lsr.getLsbD 5 then trigger srcThre k1 else recompute k1

/-- R602 on the stand-alone channel. -/
def execWrIer (d : Byte) (s : State) : Host.Outcome State Fault Refusal :=
  .next (s.onChannel (wrIerCall d))

/-- RD_ASR: a free value, drawn afresh at every read (R603), on one channel. -/
def rdAsrCall (k : Call) : Call := 
  (k.modify fun c => { c with draws := c.draws + 1 }).ret (Config.asrByte k.ch.cfg.handle k.ch.draws)

/-- R603 on the stand-alone channel. -/
def execRdAsr (s : State) : Host.Outcome State Fault Refusal := .next (s.onChannel rdAsrCall)

/-- RD_IIR: the value before the clear; only a THRE that is shown is cleared (R604), on one channel. -/
def rdIirCall (k : Call) : Call := 
  (if k.ch.iirId = 0b0010 then clear srcThre k else k).ret k.ch.iirValue

/-- R604 on the stand-alone channel. -/
def execRdIir (s : State) : Host.Outcome State Fault Refusal := .next (s.onChannel rdIirCall)

/-- The flushes of an FCR write that stored `d`, given the old FCR[0] (R605): a change of the discipline
flushes both sides; otherwise the clear bits act while the FIFO discipline is on. -/
def fcrFlushes (old : Bool) (d : Byte) (k : Call) : Call :=
  if k.ch.fcr.getLsbD 0 != old then txFlush (rxFlush k)
  else if k.ch.fcr.getLsbD 0 then
    let k1 := if d.getLsbD 1 then rxFlush k else k
    if d.getLsbD 2 then txFlush k1 else k1
  else k

/-- WR_FCR: ignored on a variant without a FIFO (R605), on one channel. -/
def wrFcrCall (d : Byte) (k : Call) : Call := 
  if k.ch.depth = 0 then k
  else recompute (fcrFlushes (k.ch.fcr.getLsbD 0) d (k.modify fun c => { c with fcr := storedFcr d }))

/-- R605 on the stand-alone channel. -/
def execWrFcr (d : Byte) (s : State) : Host.Outcome State Fault Refusal :=
  .next (s.onChannel (wrFcrCall d))

/-- RD_EFR (R606), on one channel. -/
def rdEfrCall (k : Call) : Call := k.ret k.ch.efr

/-- R606 on the stand-alone channel. -/
def execRdEfr (s : State) : Host.Outcome State Fault Refusal := .next (s.onChannel rdEfrCall)

/-- WR_EFR (R607), on one channel. -/
def wrEfrCall (d : Byte) (k : Call) : Call := k.modify fun c => { c with efr := d }

/-- R607 on the stand-alone channel. -/
def execWrEfr (d : Byte) (s : State) : Host.Outcome State Fault Refusal :=
  .next (s.onChannel (wrEfrCall d))

/-- RD_LCR (R608), on one channel. -/
def rdLcrCall (k : Call) : Call := k.ret k.ch.lcr

/-- R608 on the stand-alone channel. -/
def execRdLcr (s : State) : Host.Outcome State Fault Refusal := .next (s.onChannel rdLcrCall)

/-- WR_LCR: leaves the 650 bank and stores the byte (R609), on one channel. -/
def wrLcrCall (d : Byte) (k : Call) : Call := 
  k.modify fun c => { c with bank650 := false, lcr := d }

/-- R609 on the stand-alone channel. -/
def execWrLcr (d : Byte) (s : State) : Host.Outcome State Fault Refusal :=
  .next (s.onChannel (wrLcrCall d))

/-- WR_LCR_BANK: enters the 650 bank; LCR is unchanged (R610), on one channel. -/
def wrLcrBankCall (k : Call) : Call := k.modify fun c => { c with bank650 := true }

/-- R610 on the stand-alone channel. -/
def execWrLcrBank (s : State) : Host.Outcome State Fault Refusal := .next (s.onChannel wrLcrBankCall)

/-- RD_MCR (R611), on one channel. -/
def rdMcrCall (k : Call) : Call := k.ret k.ch.mcr

/-- R611 on the stand-alone channel. -/
def execRdMcr (s : State) : Host.Outcome State Fault Refusal := .next (s.onChannel rdMcrCall)

/-- `ModemStatusRecompute()` (R705): new line bits, accumulated deltas, and the MS source when a line
changed. -/
def modemStatusRecompute (k : Call) : Call :=
  let nl := k.ch.lineBits
  let chg := lineDeltas (k.ch.msr.extractLsb' 4 4) nl
  let k1 := k.modify fun c => { c with msr := nl ++ (c.msr.extractLsb' 0 4 ||| chg) }
  if chg ≠ 0 then trigger srcMs k1 else k1

/-- WR_MCR: then the modem status is recomputed (R612), on one channel. -/
def wrMcrCall (d : Byte) (k : Call) : Call := 
  modemStatusRecompute (k.modify fun c => { c with mcr := storedMcr c.cfg.variant d })

/-- R612 on the stand-alone channel. -/
def execWrMcr (d : Byte) (s : State) : Host.Outcome State Fault Refusal :=
  .next (s.onChannel (wrMcrCall d))

/-- RD_XON1 (R613), on one channel. -/
def rdXon1Call (k : Call) : Call := k.ret k.ch.xon1

/-- R613 on the stand-alone channel. -/
def execRdXon1 (s : State) : Host.Outcome State Fault Refusal := .next (s.onChannel rdXon1Call)

/-- WR_XON1 (R614), on one channel. -/
def wrXon1Call (d : Byte) (k : Call) : Call := k.modify fun c => { c with xon1 := d }

/-- R614 on the stand-alone channel. -/
def execWrXon1 (d : Byte) (s : State) : Host.Outcome State Fault Refusal :=
  .next (s.onChannel (wrXon1Call d))

/-- RD_ICR: the entry SCR selects (R615), on one channel. -/
def rdIcrCall (k : Call) : Call := k.ret (Memory.read k.ch.icr k.ch.scr.toNat)

/-- R615 on the stand-alone channel. -/
def execRdIcr (s : State) : Host.Outcome State Fault Refusal := .next (s.onChannel rdIcrCall)

/-- WR_ICR: the identification block is read-only; 0x00 into CSR is the soft reset (R1303) (R616), on one channel. -/
def wrIcrCall (d : Byte) (k : Call) : Call := 
  if isIdIndex k.ch.scr.toNat then k
  else if k.ch.scr.toNat = icrCsr ∧ d = 0x00 then resetCall k
  else k.modify fun c => { c with icr := Memory.write c.icr c.scr.toNat d }

/-- R616 on the stand-alone channel. -/
def execWrIcr (d : Byte) (s : State) : Host.Outcome State Fault Refusal :=
  .next (s.onChannel (wrIcrCall d))

end Sys2Proof.Machine
end

