-- ==== Sys2Proof/Machine/DataRegs.lean ====
section
/-! DEFINITION. The data registers (41_data_registers.md R501 to R509). -/

namespace Sys2Proof.Machine

/-- RD_RBR: the RBR latch; DR and the RDA source are cleared (R501), on one channel. -/
def rdRbrCall (k : Call) : Call := 
  (clear srcRda (k.modify fun c => { c with lsr := setBit c.lsr 0 false })).ret k.ch.rbr

/-- R501 on the stand-alone channel. -/
def execRdRbr (s : State) : Host.Outcome State Fault Refusal := .next (s.onChannel rdRbrCall)

/-- RD_RBR_FIFO: pop the receive FIFO (R502), on one channel. -/
def rdRbrFifoCall (k : Call) : Call := rxPop k

/-- R502 on the stand-alone channel. -/
def execRdRbrFifo (s : State) : Host.Outcome State Fault Refusal := .next (s.onChannel rdRbrFifoCall)

/-- WR_THR: start or queue a byte (R503), on one channel. -/
def wrThrCall (d : Byte) (k : Call) : Call := 
  if k.ch.fifoOn then txWriteFifo d k else txWriteUnbuf d k

/-- R503 on the stand-alone channel. -/
def execWrThr (d : Byte) (s : State) : Host.Outcome State Fault Refusal :=
  .next (s.onChannel (wrThrCall d))

/-- RD_DLL (R504), on one channel. -/
def rdDllCall (k : Call) : Call := k.ret k.ch.dll

/-- R504 on the stand-alone channel. -/
def execRdDll (s : State) : Host.Outcome State Fault Refusal := .next (s.onChannel rdDllCall)

/-- WR_DLL: every write reprograms the divisor (R505), on one channel. -/
def wrDllCall (d : Byte) (k : Call) : Call := 
  divisorReprogram (k.modify fun c => { c with dll := d })

/-- R505 on the stand-alone channel. -/
def execWrDll (d : Byte) (s : State) : Host.Outcome State Fault Refusal :=
  .next (s.onChannel (wrDllCall d))

/-- RD_DLM (R506), on one channel. -/
def rdDlmCall (k : Call) : Call := k.ret k.ch.dlm

/-- R506 on the stand-alone channel. -/
def execRdDlm (s : State) : Host.Outcome State Fault Refusal := .next (s.onChannel rdDlmCall)

/-- WR_DLM: every write reprograms the divisor (R507), on one channel. -/
def wrDlmCall (d : Byte) (k : Call) : Call := 
  divisorReprogram (k.modify fun c => { c with dlm := d })

/-- R507 on the stand-alone channel. -/
def execWrDlm (d : Byte) (s : State) : Host.Outcome State Fault Refusal :=
  .next (s.onChannel (wrDlmCall d))

/-- RD_SCR (R508), on one channel. -/
def rdScrCall (k : Call) : Call := k.ret k.ch.scr

/-- R508 on the stand-alone channel. -/
def execRdScr (s : State) : Host.Outcome State Fault Refusal := .next (s.onChannel rdScrCall)

/-- WR_SCR (R509), on one channel. -/
def wrScrCall (d : Byte) (k : Call) : Call := k.modify fun c => { c with scr := d }

/-- R509 on the stand-alone channel. -/
def execWrScr (d : Byte) (s : State) : Host.Outcome State Fault Refusal :=
  .next (s.onChannel (wrScrCall d))

end Sys2Proof.Machine
end

