-- ==== Sys2Proof/Machine/StatusRegs.lean ====
section
/-! DEFINITION. The status registers (43_status_registers.md R701 to R704). -/

namespace Sys2Proof.Machine

/-- RD_LSR: the value before OE, PE, FE, BI and the RLS source are cleared (R701), on one channel. -/
def rdLsrCall (k : Call) : Call := 
  (clear srcRls (k.modify fun c => { c with lsr := lsrAfterRead c.lsr })).ret k.ch.lsr

/-- R701 on the stand-alone channel. -/
def execRdLsr (s : State) : Host.Outcome State Fault Refusal := .next (s.onChannel rdLsrCall)

/-- WR_LSR: force bits 4:0; forced ones raise their sources, forced zeros clear none (R702), on one channel. -/
def wrLsrCall (d : Byte) (k : Call) : Call := 
  let k1 := k.modify fun c => { c with lsr := forcedLsr c.lsr d }
  if forcedLsrSources d ≠ 0 then trigger (forcedLsrSources d) k1 else k1

/-- R702 on the stand-alone channel. -/
def execWrLsr (d : Byte) (s : State) : Host.Outcome State Fault Refusal :=
  .next (s.onChannel (wrLsrCall d))

/-- RD_MSR: the value before the deltas and the MS source are cleared (R703), on one channel. -/
def rdMsrCall (k : Call) : Call := 
  (clear srcMs (k.modify fun c => { c with msr := c.msr &&& 0xF0 })).ret k.ch.msr

/-- R703 on the stand-alone channel. -/
def execRdMsr (s : State) : Host.Outcome State Fault Refusal := .next (s.onChannel rdMsrCall)

/-- WR_MSR: the whole byte is written; a set low nibble raises MS (R704), on one channel. -/
def wrMsrCall (d : Byte) (k : Call) : Call := 
  let k1 := k.modify fun c => { c with msr := d }
  if d.extractLsb' 0 4 ≠ 0 then trigger srcMs k1 else k1

/-- R704 on the stand-alone channel. -/
def execWrMsr (d : Byte) (s : State) : Host.Outcome State Fault Refusal :=
  .next (s.onChannel (wrMsrCall d))

end Sys2Proof.Machine
end

