-- ==== Sys2Proof/Machine/CompositeOps.lean ====
section
/-! DEFINITION. The composite operations CRD, CWR, CTICK and CRESET (47_composite.md R1103 to R1105). -/

namespace Sys2Proof.Machine

/-- What a channel does for an operation its decode selects. No decode of a channel selects one of the last
four, which are operations of a composite (R412). -/
def channelCall (i : Instr) : Call → Call :=
  match i with
  | .rdRbr => rdRbrCall
  | .rdRbrFifo => rdRbrFifoCall
  | .rdDll => rdDllCall
  | .wrThr d => wrThrCall d
  | .wrDll d => wrDllCall d
  | .rdIer => rdIerCall
  | .rdAsr => rdAsrCall
  | .rdDlm => rdDlmCall
  | .wrIer d => wrIerCall d
  | .wrDlm d => wrDlmCall d
  | .rdIir => rdIirCall
  | .rdEfr => rdEfrCall
  | .wrFcr d => wrFcrCall d
  | .wrEfr d => wrEfrCall d
  | .rdLcr => rdLcrCall
  | .wrLcr d => wrLcrCall d
  | .wrLcrBank => wrLcrBankCall
  | .rdMcr => rdMcrCall
  | .rdXon1 => rdXon1Call
  | .wrMcr d => wrMcrCall d
  | .wrXon1 d => wrXon1Call d
  | .rdLsr => rdLsrCall
  | .rdIcr => rdIcrCall
  | .wrLsr d => wrLsrCall d
  | .wrIcr d => wrIcrCall d
  | .rdMsr => rdMsrCall
  | .wrMsr d => wrMsrCall d
  | .rdScr => rdScrCall
  | .wrScr d => wrScrCall d
  | .tick => tickCall
  | .reset => resetCall
  | .crd _ => id
  | .cwr _ _ => id
  | .ctick => id
  | .creset => id

/-- `read(off)` and `write(off, d)` of one channel: decoded in the channel's own state as it is before the
operation (R410, R412), then performed. -/
def busAccess (write : Bool) (off : Offset) (d : Byte) (k : Call) : Call :=
  channelCall (decodeBus k.ch.view write off d) k

/-- CRD (R1103): `return child[ch].read(off)`. -/
def execCrd (ao : AggregateOffset) (s : State) : Host.Outcome State Fault Refusal :=
  .next (s.onSelected ao (busAccess false (localOf ao) 0x00))

/-- CWR (R1103): `child[ch].write(off, D)`. -/
def execCwr (ao : AggregateOffset) (d : Byte) (s : State) : Host.Outcome State Fault Refusal :=
  .next (s.onSelected ao (busAccess true (localOf ao) d))

/-- CTICK (R1104): one base tick of every child, in child order. -/
def execCtick (s : State) : Host.Outcome State Fault Refusal := .next (s.onEveryChild tickCall)

/-- CRESET (R1105): reset every child, in child order. -/
def execCreset (s : State) : Host.Outcome State Fault Refusal := .next (s.onEveryChild resetCall)

end Sys2Proof.Machine
end

