-- ==== Sys2Proof/Machine/HostOps.lean ====
section
/-! DEFINITION. The host control operations of a channel (R303): TICK (46_timer_engine.md R1005) and RESET
(70_reset_and_hazards.md R1300). -/

namespace Sys2Proof.Machine

/-- TICK (R1005) on the stand-alone channel. -/
def execTick (s : State) : Host.Outcome State Fault Refusal := .next (s.onChannel tickCall)

/-- RESET (R1300) on the stand-alone channel. -/
def execReset (s : State) : Host.Outcome State Fault Refusal := .next (s.onChannel resetCall)

end Sys2Proof.Machine
end

