-- ==== Sys2Proof/Machine/Dispatch.lean ====
section
/-! DEFINITION. One arm per operation of the opcode table (30_encoding.md R305). -/

namespace Sys2Proof.Machine

def exec (i : Instr) (s : State) : Host.Outcome State Fault Refusal :=
  match i with
  | .rdRbr => Sys2Proof.Machine.execRdRbr s
  | .rdRbrFifo => Sys2Proof.Machine.execRdRbrFifo s
  | .rdDll => Sys2Proof.Machine.execRdDll s
  | .wrThr d => Sys2Proof.Machine.execWrThr d s
  | .wrDll d => Sys2Proof.Machine.execWrDll d s
  | .rdIer => Sys2Proof.Machine.execRdIer s
  | .rdAsr => Sys2Proof.Machine.execRdAsr s
  | .rdDlm => Sys2Proof.Machine.execRdDlm s
  | .wrIer d => Sys2Proof.Machine.execWrIer d s
  | .wrDlm d => Sys2Proof.Machine.execWrDlm d s
  | .rdIir => Sys2Proof.Machine.execRdIir s
  | .rdEfr => Sys2Proof.Machine.execRdEfr s
  | .wrFcr d => Sys2Proof.Machine.execWrFcr d s
  | .wrEfr d => Sys2Proof.Machine.execWrEfr d s
  | .rdLcr => Sys2Proof.Machine.execRdLcr s
  | .wrLcr d => Sys2Proof.Machine.execWrLcr d s
  | .wrLcrBank => Sys2Proof.Machine.execWrLcrBank s
  | .rdMcr => Sys2Proof.Machine.execRdMcr s
  | .rdXon1 => Sys2Proof.Machine.execRdXon1 s
  | .wrMcr d => Sys2Proof.Machine.execWrMcr d s
  | .wrXon1 d => Sys2Proof.Machine.execWrXon1 d s
  | .rdLsr => Sys2Proof.Machine.execRdLsr s
  | .rdIcr => Sys2Proof.Machine.execRdIcr s
  | .wrLsr d => Sys2Proof.Machine.execWrLsr d s
  | .wrIcr d => Sys2Proof.Machine.execWrIcr d s
  | .rdMsr => Sys2Proof.Machine.execRdMsr s
  | .wrMsr d => Sys2Proof.Machine.execWrMsr d s
  | .rdScr => Sys2Proof.Machine.execRdScr s
  | .wrScr d => Sys2Proof.Machine.execWrScr d s
  | .tick => Sys2Proof.Machine.execTick s
  | .reset => Sys2Proof.Machine.execReset s
  | .crd ao => Sys2Proof.Machine.execCrd ao s
  | .cwr ao d => Sys2Proof.Machine.execCwr ao d s
  | .ctick => Sys2Proof.Machine.execCtick s
  | .creset => Sys2Proof.Machine.execCreset s

end Sys2Proof.Machine
end

