-- ==== Sys2Proof/Machine/Step.lean ====
section
/-! DEFINITION. One step: the host's next operation (00_scope.md R10, R11; 10_state.md R103). -/

namespace Sys2Proof.Machine

/-- The refusal a word that spells no operation gets (R307). -/
def refusalOf : DecodeError → Refusal
  | .undefinedHostCode w => .undefinedHostCode w
  | .undefinedCompositeCode w => .undefinedCompositeCode w

/-- The state in which the operation runs: the host's sequence has advanced by one (R103). -/
def State.advance (s : State) (rest : List HostWord) : State :=
  { s with program := rest, pos := s.pos + 1 }

/-- One host operation: take the host's next word, decode it in the state as it is (R410), run it to
completion (R206). A word that spells no operation has no step (R307). -/
def step (s : State) : Host.Outcome State Fault Refusal :=
  match s.program with
  | [] => .refused .noHostOperation
  | word :: rest =>
    match decode s.chan.view word with
    | .ok i => exec i (s.advance rest)
    | .error e => .refused (refusalOf e)

/-- The state whose next host operation is the one with these bits; the operations already waiting follow
it. Bits that are no operation word leave the host with nothing to issue. -/
def State.withFetchWord (s : State) (nbits w : Nat) : State :=
  match wordOfBits nbits w with
  | some word => { s with program := word :: s.program }
  | none => { s with program := [] }

end Sys2Proof.Machine
end

