-- ==== Sys2Proof/Safety.lean ====
section
/-! DEFINITION. The terms claims use: what is observed of the callbacks, the contents of a FIFO, runs of
operations, and the invariants that hold between host operations. -/

namespace Sys2Proof.Machine

/-- An `interrupt_line` call. -/
def Event.isLineCall : Event → Bool
  | .interruptLine _ _ => true
  | .receiveByte _ _ _ => false
  | .transmitByte _ _ _ => false

/-- The receive and transmit callbacks, in order. A claim may not rely on how many `interrupt_line` calls
repeat an unchanged level (R806, U8), so claims about callbacks are made through this. -/
def dataCalls (es : List Event) : List Event := es.filter fun e => !e.isLineCall

/-- The level an `interrupt_line` call about channel `h` delivers. -/
def Event.levelFor (h : Handle) : Event → Option Bool
  | .interruptLine g b => if g = h then some b else none
  | .receiveByte _ _ _ => none
  | .transmitByte _ _ _ => none

/-- The level last delivered to the host for channel `h` (R132). -/
def lineLevel (h : Handle) (es : List Event) : Option Bool := (es.filterMap (Event.levelFor h)).getLast?

/-- The byte a `transmit_byte` call of channel `h` hands over. -/
def Event.sentBy (h : Handle) : Event → Option Byte
  | .interruptLine _ _ => none
  | .receiveByte _ _ _ => none
  | .transmitByte g _ b => if g = h then some b else none

/-- The bytes channel `h` has transmitted, in order. -/
def transmitted (h : Handle) (es : List Event) : List Byte := es.filterMap (Event.sentBy h)

/-- The answer a `receive_byte` call of channel `h` got: a byte or `NONE`. -/
def Event.answerTo (h : Handle) : Event → Option (Option Byte)
  | .interruptLine _ _ => none
  | .receiveByte g _ a => if g = h then some a else none
  | .transmitByte _ _ _ => none

/-- The answers channel `h` has got from the receive callback, one a call, in order. -/
def polled (h : Handle) (es : List Event) : List (Option Byte) := es.filterMap (Event.answerTo h)

/-- A state with only the receive and transmit callbacks of its event log. -/
def State.quiet (s : State) : State := { s with events := dataCalls s.events }

/-- The bytes in a buffer of `depth` bytes, the oldest first (R126). -/
def Fifo.contents (depth : Nat) (f : Fifo) : List Byte :=
  (List.range f.count).map fun i => Memory.read f.buf ((f.head + i) % depth)

/-- The bytes in the receive FIFO, the oldest first. -/
def Channel.rxContents (c : Channel) : List Byte := c.rx.contents c.depth

/-- The bytes in the transmit FIFO, the oldest first. -/
def Channel.txContents (c : Channel) : List Byte := c.tx.contents c.depth

/-- Every channel of the machine: the stand-alone one and the composite's children. -/
def State.channels (s : State) : List Channel := s.chan :: s.comp.children

/-- `P` holds of every channel. -/
def State.Everywhere (P : Channel → Prop) (s : State) : Prop := ∀ c ∈ s.channels, P c

/-- A run of operations on the machine, without the host's words; it stops where one has no next state. -/
def runOps : List Instr → State → Host.Outcome State Fault Refusal
  | [], s => .next s
  | i :: is, s =>
    match exec i s with
    | .next t => runOps is t
    | .fault r => .fault r
    | .refused r => .refused r

/-- The values the bus reads of a run return, in order. -/
def returned : List Instr → State → List Byte
  | [], _ => []
  | i :: is, s =>
    match exec i s with
    | .next t => t.result.toList ++ returned is t
    | .fault _ => []
    | .refused _ => []

/-- A circular buffer's wrap invariant (R126, R127), its canonical storage, and indices in range; on a
variant without FIFOs (depth 0) the indices stay 0. -/
structure Fifo.Ok (depth : Nat) (f : Fifo) : Prop where
  wf    : Memory.wf f.buf = true
  head  : f.head < max depth 1
  count : f.count ≤ depth
  tail  : f.tail = (f.head + f.count) % depth

/-- Both FIFOs are well-formed circular buffers (R126, R127, R916). -/
structure Channel.FifosOk (c : Channel) : Prop where
  rx : c.rx.Ok c.depth
  tx : c.tx.Ok c.depth

/-- The identification and the level are what `Recompute` would compute now (R808). -/
structure Channel.IdentificationOk (c : Channel) : Prop where
  iirId   : c.iirId = identification c.pending c.ier
  intLine : c.intLine = interruptLevel c.pending c.ier

/-- The character-timeout marker stands only beside RDA, and only in the FIFO discipline (R811). -/
structure Channel.MarkerOk (c : Channel) : Prop where
  withRda  : c.pending.getLsbD 4 = true → c.pending.getLsbD 0 = true
  fifoOnly : c.pending.getLsbD 4 = true → c.fifoOn = true

/-- The TSR's invariants (R128) and the empty flags' agreement with the transmitter (R916). -/
structure Channel.TransmitterOk (c : Channel) : Prop where
  busy    : c.tsrBusy = decide (0 < c.txBits)
  bits    : c.txBits ≤ 12
  queued  : c.thrPending = true → c.tsrBusy = true
  noQueue : c.fifoOn = true → c.thrPending = false
  thre    : c.lsr.getLsbD 5 = (if c.fifoOn then decide (c.tx.count = 0) else !c.tsrBusy)
  temt    : c.lsr.getLsbD 6 = (if c.fifoOn then decide (c.tx.count = 0) && !c.tsrBusy else !c.tsrBusy)

/-- The countdowns' ranges (R131), and when the timeout may be armed (R916). -/
structure Channel.TimersOk (c : Channel) : Prop where
  baudLow   : 1 ≤ c.baudCnt
  baudHigh  : c.baudCnt ≤ 2088928
  toHigh    : c.toCnt ≤ 100268544
  armedFifo : c.toArmed = true → c.fifoOn = true ∧ 0 < c.rx.count
  armedLeft : c.toArmed = true → 0 < c.toCnt
  disarmed  : c.toArmed = false → c.toCnt = 0

/-- The bits and registers that hold a fixed value (93_implementation_defined.md U10 to U13; R106, R108,
R110, R111, R115) and the elements a variant lacks (R134). -/
structure Channel.FixedOk (c : Channel) : Prop where
  lsr7    : c.lsr.getLsbD 7 = false
  ier     : c.cfg.variant.ext = false → c.ier &&& 0xF0 = 0x00
  mcr     : c.cfg.variant.ext = false → c.mcr &&& 0xE0 = 0x00
  fcr     : c.fcr &&& 0x06 = 0x00
  noFifo  : c.cfg.variant.fifoCap = false → c.fcr = 0x00
  noBank  : c.cfg.variant.hasBank650 = false → c.bank650 = false
  noIcr   : c.cfg.variant.x950 = false → c.icr = []

/-- The ICR array is in canonical form, and its identification block and the modem latches hold their
parameters (R118, R121, R129). -/
structure Channel.ParametersOk (c : Channel) : Prop where
  icrWf   : Memory.wf c.icr = true
  id1     : c.cfg.variant.x950 = true → Memory.read c.icr 0x08 = c.cfg.id1
  id2     : c.cfg.variant.x950 = true → Memory.read c.icr 0x09 = c.cfg.id2
  id3     : c.cfg.variant.x950 = true → Memory.read c.icr 0x0A = c.cfg.id3
  rev     : c.cfg.variant.x950 = true → Memory.read c.icr 0x0B = c.cfg.rev
  latches : c.latches = c.cfg.modemIn

/-- The invariant of a channel between host operations. -/
structure Channel.Inv (c : Channel) : Prop where
  fifos          : c.FifosOk
  identification : c.IdentificationOk
  marker         : c.MarkerOk
  transmitter    : c.TransmitterOk
  timers         : c.TimersOk
  fixed          : c.FixedOk
  parameters     : c.ParametersOk

/-- Every channel is called by its own handle and sub-channel number (R1101, R1103). -/
structure State.IdentitiesOk (s : State) : Prop where
  standalone : s.chan.cfg.handle = .standalone ∧ s.chan.cfg.sub = 0
  children   : ∀ (i : Fin 4) (c : Channel), s.comp.childAt i.val = some c →
    c.cfg.handle = .child i ∧ c.cfg.sub = i.val

/-- The level last delivered to the host for each channel is the channel's `int_line` (R132, R1204). -/
def State.LinesDelivered (s : State) : Prop :=
  s.Everywhere fun c => lineLevel c.cfg.handle s.events = some c.intLine

/-- The invariant of the machine between host operations. -/
structure State.Inv (s : State) : Prop where
  channels   : s.Everywhere Channel.Inv
  identities : s.IdentitiesOk
  lines      : s.LinesDelivered

/-- A bus read at offset `a` decodes to `i` in the stand-alone channel's state, whatever its ignored D field
holds (R301, R302). -/
def State.ReadDecodes (s : State) (a : Offset) (i : Instr) : Prop :=
  ∀ d : Byte, decode s.chan.view (.channel (0#1 ++ 0#1 ++ a ++ d)) = .ok i

/-- A bus write of `d` at offset `a` decodes to `i` in the stand-alone channel's state (R301). -/
def State.WriteDecodes (s : State) (a : Offset) (d : Byte) (i : Instr) : Prop :=
  decode s.chan.view (.channel (0#1 ++ 1#1 ++ a ++ d)) = .ok i

/-- The next tick's timeout step does not fire (R1010): where the timeout counts, it has more than one tick
left. (An armed countdown of 0 is outside `TimersOk`.) -/
def Channel.NoExpiry (c : Channel) : Prop := c.toArmed = true → c.fifoOn = true → 1 < c.toCnt

/-- What a tick does to the character timeout where it puts no byte into the receive FIFO (R1009, R1010): an
armed one counts in the FIFO discipline and is disarmed when it fires; nothing re-arms it. -/
structure Channel.TimeoutCounts (c c' : Channel) : Prop where
  counts : c.toArmed = true → c.fifoOn = true → 1 < c.toCnt → c'.toArmed = true ∧ c'.toCnt = c.toCnt - 1
  fires  : c.toArmed = true → c.fifoOn = true → c.toCnt = 1 → c'.toArmed = false ∧ c'.toCnt = 0
  idle   : c.toArmed = false ∨ c.fifoOn = false → c'.toArmed = c.toArmed ∧ c'.toCnt = c.toCnt

/-- What the completion of the byte in the TSR does to the channel (R907), in terms of what was queued: the
next byte is loaded if there is one, and the empty flags and the THRE source follow (R903). Nothing else
changes. -/
structure Channel.CompletesTo (c c' : Channel) : Prop where
  frame : c' = { c with
    tsrBusy := c'.tsrBusy, tsrByte := c'.tsrByte, txBits := c'.txBits, thrPending := c'.thrPending,
    tx := c'.tx, lsr := c'.lsr, pending := c'.pending, iirId := c'.iirId, intLine := c'.intLine }
  identified : c.IdentificationOk → c'.IdentificationOk
  lastUnbuffered : c.fifoOn = false → c.thrPending = false →
    c'.tsrBusy = false ∧ c'.txBits = 0 ∧ c'.tsrByte = c.tsrByte ∧ c'.thrPending = false ∧ c'.tx = c.tx ∧
    c'.lsr = c.lsr ||| 0x60 ∧
    c'.pending = (if c.lsr.getLsbD 5 then c.pending else c.pending ||| 0x02)
  queuedUnbuffered : c.fifoOn = false → c.thrPending = true →
    c'.tsrBusy = true ∧ c'.txBits = frameBits c.lcr ∧ c'.tsrByte = c.thr ∧ c'.thrPending = false ∧
    c'.tx = c.tx ∧ c'.lsr = c.lsr &&& 0x9F ∧ c'.pending = c.pending
  lastFifo : c.fifoOn = true → c.txContents = [] →
    c'.tsrBusy = false ∧ c'.txBits = 0 ∧ c'.tsrByte = c.tsrByte ∧ c'.thrPending = c.thrPending ∧
    c'.tx = c.tx ∧ c'.lsr = c.lsr ||| 0x60 ∧
    c'.pending = (if c.lsr.getLsbD 5 then c.pending else c.pending ||| 0x02)
  queuedFifo : c.fifoOn = true → ∀ (b : Byte) (rest : List Byte), c.txContents = b :: rest →
    c'.tsrBusy = true ∧ c'.txBits = frameBits c.lcr ∧ c'.tsrByte = b ∧ c'.thrPending = c.thrPending ∧
    c'.txContents = rest ∧
    c'.lsr = (c.lsr &&& 0x9F) ||| (if rest = [] then 0x20 else 0x00) ∧
    c'.pending = (if rest = [] ∧ c.lsr.getLsbD 5 = false then c.pending ||| 0x02 else c.pending)

end Sys2Proof.Machine

namespace Sys2Proof

/-- The row of a bus operation matches the word: W and A agree, and for a write the data byte too (R301). -/
def Instr.MatchesWord (i : Instr) (w : BitVec 13) : Prop :=
  ∃ u : BitVec 13, encode i = .channel u ∧ u.extractLsb' 8 5 = w.extractLsb' 8 5 ∧
    (w.getLsbD 11 = true → u = w)

/-- The operations of the composite (R1103 to R1105). -/
def Instr.isComposite : Instr → Bool
  | .rdRbr => false
  | .rdRbrFifo => false
  | .rdDll => false
  | .wrThr _ => false
  | .wrDll _ => false
  | .rdIer => false
  | .rdAsr => false
  | .rdDlm => false
  | .wrIer _ => false
  | .wrDlm _ => false
  | .rdIir => false
  | .rdEfr => false
  | .wrFcr _ => false
  | .wrEfr _ => false
  | .rdLcr => false
  | .wrLcr _ => false
  | .wrLcrBank => false
  | .rdMcr => false
  | .rdXon1 => false
  | .wrMcr _ => false
  | .wrXon1 _ => false
  | .rdLsr => false
  | .rdIcr => false
  | .wrLsr _ => false
  | .wrIcr _ => false
  | .rdMsr => false
  | .wrMsr _ => false
  | .rdScr => false
  | .wrScr _ => false
  | .tick => false
  | .reset => false
  | .crd _ => true
  | .cwr _ _ => true
  | .ctick => true
  | .creset => true

end Sys2Proof
end

