-- ==== Sys2Proof/Certificates/Slice0/Obligations.lean ====
section
/-! DEFINITION. The statements for the provers, from the numbered rules of spec/. A claim about callbacks is
about the receive and transmit callbacks (`quiet`, `dataCalls`): how many `interrupt_line` calls repeat a
level is nothing a claim may rely on (R806). -/

open Sys2Proof Sys2Proof.Machine

/-! ### Operation words and the step -/

/-- R300 to R305: operation words written out from the pattern strings decode to their rows, in the state
right after reset. The words are those of programs P1 and P5 of 95_test_vectors.md. -/
def Obligations.SpecWordsDecodeToTheirRows : Prop :=
  decode (.afterReset .V8250) (.channel 0b0101100000011#13) = .ok (.wrLcr 0x03) ∧
  decode (.afterReset .V8250) (.channel 0b0100001000001#13) = .ok (.wrThr 0x41) ∧
  decode (.afterReset .V8250) (.channel 0b0100100000010#13) = .ok (.wrIer 0x02) ∧
  decode (.afterReset .V8250) (.channel 0b0001000000000#13) = .ok .rdIir ∧
  decode (.afterReset .V8250) (.channel 0b1000000000000#13) = .ok .tick ∧
  decode (.afterReset .V8250) (.channel 0b1000000000001#13) = .ok .reset ∧
  decode (.afterReset .V8250) (.composite 0b001101100000000#15) = .ok (.crd 0x1B) ∧
  decode (.afterReset .V8250) (.composite 0b011101100000011#15) = .ok (.cwr 0x1B 0x03) ∧
  decode (.afterReset .V8250) (.composite 0b100000000000000#15) = .ok .ctick ∧
  decode (.afterReset .V8250) (.composite 0b100000000000001#15) = .ok .creset

/-- R301 to R305: in every state in which a row's condition holds, the row's encoded word decodes to the row,
with every operand at every value. -/
def Obligations.DecodeOfEncodeIsTheOperation : Prop :=
  ∀ (v : DecodeView) (i : Instr), i.condition v = true → decode v (encode i) = .ok i

/-- R306: every bus word decodes to exactly one operation, in every state and on every variant; an access to
a feature the variant lacks falls into the ordinary row. -/
def Obligations.EveryBusWordDecodesToExactlyOneOperation : Prop :=
  (∀ (v : DecodeView) (w : BitVec 13), w.getLsbD 12 = false →
    ∃ i, decode v (.channel w) = .ok i ∧ i.condition v = true ∧ i.MatchesWord w ∧
      ∀ j : Instr, j.condition v = true → j.MatchesWord w → j = i) ∧
  (∀ s : State, s.chan.depth = 0 → ∀ d, exec (.wrFcr d) s = .next { s with result := none }) ∧
  (∀ v : DecodeView, v.variant.hasBank650 = false →
    decode v (.channel 0b0101110111111#13) = .ok (.wrLcr 0xBF))

/-- R307: the host codes 0x002 to 0xFFF and the composite codes 0x0002 to 0x3FFF have no step, and they are
the only words that decode to nothing. -/
def Obligations.UndefinedCodesAreTheOnlyWordsRefused : Prop :=
  (∀ (s : State) (w : BitVec 13) (rest : List HostWord), s.program = .channel w :: rest →
    w.getLsbD 12 = true → 0x002 ≤ (w.extractLsb' 0 12).toNat →
    step s = .refused (.undefinedHostCode w)) ∧
  (∀ (s : State) (w : BitVec 15) (rest : List HostWord), s.program = .composite w :: rest →
    w.getLsbD 14 = true → 0x0002 ≤ (w.extractLsb' 0 14).toNat →
    step s = .refused (.undefinedCompositeCode w)) ∧
  (∀ (v : DecodeView) (w : BitVec 13) (e : DecodeError), decode v (.channel w) = .error e →
    w.getLsbD 12 = true ∧ 0x002 ≤ (w.extractLsb' 0 12).toNat) ∧
  (∀ (v : DecodeView) (w : BitVec 15) (e : DecodeError), decode v (.composite w) = .error e →
    w.getLsbD 14 = true ∧ 0x0002 ≤ (w.extractLsb' 0 14).toNat)

/-- R10, R410: a step takes the host's next word, decodes it in the state before the operation, and runs the
operation; around it only the host's sequence has advanced by one. -/
def Obligations.StepRunsTheDecodedOperation : Prop :=
  ∀ (s : State) (word : HostWord) (rest : List HostWord) (i : Instr),
    s.program = word :: rest → decode s.chan.view word = .ok i →
    step s = exec i { s with program := rest, pos := s.pos + 1 }

/-- R103: the position is the index into the host's sequence; every step uses up one operation of the
sequence and advances the index by one. -/
def Obligations.EveryStepAdvancesThePositionByOne : Prop :=
  ∀ s t : State, step s = .next t → t.pos = s.pos + 1 ∧ ∃ word, s.program = word :: t.program

/-- R1200: no operation fails, in any state; a step fails to give a next state only where the host issues
nothing or a word that spells no operation. -/
def Obligations.NoOperationFails : Prop :=
  (∀ (i : Instr) (s : State), ∃ t, exec i s = .next t) ∧
  (∀ (s : State) (word : HostWord) (rest : List HostWord), s.program = word :: rest →
    (∃ t, step s = .next t) ∨ ∃ e, decode s.chan.view word = .error e)

/-- R411: no decode selects a bank or register the variant lacks, given that `bank650` is never 1 without
`Bank650` and the FIFO discipline never on without `FifoCap`. -/
def Obligations.NoDecodeSelectsAnAbsentRegister : Prop :=
  ∀ (v : DecodeView) (word : HostWord) (i : Instr),
    (v.bank = true → v.variant.hasBank650 = true) → (v.fifoOn = true → v.variant.fifoCap = true) →
    decode v word = .ok i → i.wellFormed v.variant = true

/-! ### Data registers -/

/-- R504, R506, R508, R606, R608, R613, R615: where these reads decode, what they return, and that they
change nothing else. -/
def Obligations.PlainReadsReturnTheirRegister : Prop :=
  ∀ s : State,
    (s.chan.lcr.getLsbD 7 = true → s.ReadDecodes 0 .rdDll) ∧
    exec .rdDll s = .next { s with result := some s.chan.dll } ∧
    (s.chan.lcr.getLsbD 7 = true → s.ReadDecodes 1 .rdDlm) ∧
    exec .rdDlm s = .next { s with result := some s.chan.dlm } ∧
    s.ReadDecodes 7 .rdScr ∧
    exec .rdScr s = .next { s with result := some s.chan.scr } ∧
    (s.chan.bank650 = true → s.ReadDecodes 2 .rdEfr) ∧
    exec .rdEfr s = .next { s with result := some s.chan.efr } ∧
    s.ReadDecodes 3 .rdLcr ∧
    exec .rdLcr s = .next { s with result := some s.chan.lcr } ∧
    (s.chan.bank650 = true → s.ReadDecodes 4 .rdXon1) ∧
    exec .rdXon1 s = .next { s with result := some s.chan.xon1 } ∧
    (s.chan.cfg.variant.x950 = true → s.chan.bank650 = true → s.ReadDecodes 5 .rdIcr) ∧
    exec .rdIcr s = .next { s with result := some (Memory.read s.chan.icr s.chan.scr.toNat) }

/-- R601, R611: reads of IER and MCR; on variants without `Ext` the unstored bits read 0. -/
def Obligations.ReadsOfIerAndMcr : Prop :=
  ∀ s : State,
    (s.chan.lcr.getLsbD 7 = false →
      ¬(s.chan.cfg.variant.x950 = true ∧ (Memory.read s.chan.icr 0x00).getLsbD 7 = true) →
      s.ReadDecodes 1 .rdIer) ∧
    exec .rdIer s = .next { s with result := some s.chan.ier } ∧
    (s.chan.bank650 = false → s.ReadDecodes 4 .rdMcr) ∧
    exec .rdMcr s = .next { s with result := some s.chan.mcr } ∧
    (s.chan.FixedOk → s.chan.cfg.variant.ext = false →
      (∃ t v, exec .rdIer s = .next t ∧ t.result = some v ∧ v.extractLsb' 4 4 = 0#4) ∧
      (∃ t v, exec .rdMcr s = .next t ∧ t.result = some v ∧ v.extractLsb' 5 3 = 0#3))

/-- R603, R124: the ASR read is reached with ACR[7] = 1 and returns a free value; no register changes. That
the value is the model's draw and that the draw counter moves is the model's choice (log entry 7). -/
def Obligations.AsrReadReturnsAFreeValue : Prop :=
  ∀ s : State,
    (s.chan.lcr.getLsbD 7 = false → s.chan.cfg.variant.x950 = true →
      (Memory.read s.chan.icr 0x00).getLsbD 7 = true → s.ReadDecodes 1 .rdAsr) ∧
    exec .rdAsr s = .next { s with
      chan := { s.chan with draws := s.chan.draws + 1 }
      result := some (Config.asrByte s.chan.cfg.handle s.chan.draws) }

/-- R509, R607, R609, R610, R614: where these writes decode, the one register each stores into, and that
nothing else changes: in particular no callback is made and the byte in the TSR keeps its count. -/
def Obligations.PlainWritesStoreTheirRegister : Prop :=
  ∀ (s : State) (d : Byte),
    s.WriteDecodes 7 d (.wrScr d) ∧
    exec (.wrScr d) s = .next { s with chan := { s.chan with scr := d }, result := none } ∧
    (s.chan.bank650 = true → s.WriteDecodes 2 d (.wrEfr d)) ∧
    exec (.wrEfr d) s = .next { s with chan := { s.chan with efr := d }, result := none } ∧
    (s.chan.bank650 = true → s.WriteDecodes 4 d (.wrXon1 d)) ∧
    exec (.wrXon1 d) s = .next { s with chan := { s.chan with xon1 := d }, result := none } ∧
    (¬(s.chan.cfg.variant.hasBank650 = true ∧ d = 0xBF) → s.WriteDecodes 3 d (.wrLcr d)) ∧
    exec (.wrLcr d) s = .next { s with
      chan := { s.chan with lcr := d, bank650 := false }, result := none } ∧
    (s.chan.cfg.variant.hasBank650 = true → s.WriteDecodes 3 0xBF .wrLcrBank) ∧
    exec .wrLcrBank s = .next { s with chan := { s.chan with bank650 := true }, result := none }

/-- R501: an unbuffered RBR read returns the RBR latch and clears DR and the RDA source, and nothing else.
That it clears pending bit 0 whatever DR is, also where DR = 0 with RDA pending, is the model's reading of the
rule's pseudocode against its corner case: log entry 12 (DEDUCED). -/
def Obligations.UnbufferedRbrReadClearsDataReady : Prop :=
  ∀ s : State,
    (s.chan.lcr.getLsbD 7 = false → s.chan.fifoOn = false → s.ReadDecodes 0 .rdRbr) ∧
    ∃ t, exec .rdRbr s = .next t ∧ t.quiet = { s.quiet with
      chan := { s.chan with
        lsr := s.chan.lsr &&& 0xFE
        pending := s.chan.pending &&& 0x1E
        iirId := identification (s.chan.pending &&& 0x1E) s.chan.ier
        intLine := interruptLevel (s.chan.pending &&& 0x1E) s.chan.ier }
      result := some s.chan.rbr }

/-- R502, R912: an RBR read in the FIFO discipline pops the oldest byte; RDA is kept only at or above the
trigger level, the marker goes, and DR and the timeout follow what is left. On an empty FIFO some byte is
returned, whichever it is, and the FIFO stays empty. -/
def Obligations.FifoReadPopsTheOldestByte : Prop :=
  ∀ s : State,
    (s.chan.lcr.getLsbD 7 = false → s.chan.fifoOn = true → s.ReadDecodes 0 .rdRbrFifo) ∧
    (s.chan.rx.Ok s.chan.depth →
      ∃ t v, exec .rdRbrFifo s = .next t ∧
        (∀ (b : Byte) (rest : List Byte), s.chan.rxContents = b :: rest →
          v = b ∧ t.chan.rxContents = rest) ∧
        (s.chan.rxContents = [] → t.chan.rx = s.chan.rx) ∧
        t.quiet = { s.quiet with
          chan := { s.chan with
            rx := t.chan.rx
            lsr := if t.chan.rxContents = [] then s.chan.lsr &&& 0xFE else s.chan.lsr
            pending :=
              if s.chan.trigLevel ≤ t.chan.rxContents.length then (s.chan.pending &&& 0x0E) ||| 0x01
              else s.chan.pending &&& 0x0E
            iirId := identification t.chan.pending s.chan.ier
            intLine := interruptLevel t.chan.pending s.chan.ier
            toArmed := decide (t.chan.rxContents ≠ [])
            toCnt :=
              if t.chan.rxContents = [] then 0 else 4 * frameBits s.chan.lcr * s.chan.baudConst
            draws := t.chan.draws }
          result := some v })

/-- R503, R905: a THR write in the unbuffered discipline loads an idle transmitter, or fills the one repeat
slot of a busy one; both empty flags and the THRE source are cleared. -/
def Obligations.ThrWriteUnbuffered : Prop :=
  ∀ (s : State) (d : Byte),
    (s.chan.lcr.getLsbD 7 = false → s.WriteDecodes 0 d (.wrThr d)) ∧
    (s.chan.fifoOn = false → s.chan.tsrBusy = false →
      ∃ t, exec (.wrThr d) s = .next t ∧ t.quiet = { s.quiet with
        chan := { s.chan with
          thr := d
          tsrByte := d
          tsrBusy := true
          txBits := frameBits s.chan.lcr
          lsr := s.chan.lsr &&& 0x9F
          pending := s.chan.pending &&& 0x1D
          iirId := identification (s.chan.pending &&& 0x1D) s.chan.ier
          intLine := interruptLevel (s.chan.pending &&& 0x1D) s.chan.ier }
        result := none }) ∧
    (s.chan.fifoOn = false → s.chan.tsrBusy = true →
      ∃ t, exec (.wrThr d) s = .next t ∧ t.quiet = { s.quiet with
        chan := { s.chan with
          thr := d
          thrPending := true
          lsr := s.chan.lsr &&& 0x9F
          pending := s.chan.pending &&& 0x1D
          iirId := identification (s.chan.pending &&& 0x1D) s.chan.ier
          intLine := interruptLevel (s.chan.pending &&& 0x1D) s.chan.ier }
        result := none })

/-- R503, R906: a THR write in the FIFO discipline queues the byte behind the others, or discards it where
the FIFO is full; an idle transmitter is loaded with the oldest byte at once, and where that empties the
FIFO again THRE rises and its source is raised. -/
def Obligations.ThrWriteFifo : Prop :=
  ∀ (s : State) (d : Byte), s.chan.fifoOn = true → s.chan.tx.Ok s.chan.depth →
    ∃ (t : State) (queue : List Byte), exec (.wrThr d) s = .next t ∧
      queue = (if s.chan.txContents.length < s.chan.depth then s.chan.txContents ++ [d]
        else s.chan.txContents) ∧
      (s.chan.tsrBusy = true → t.chan.txContents = queue ∧ t.chan.tsrByte = s.chan.tsrByte ∧
        t.chan.txBits = s.chan.txBits) ∧
      (s.chan.tsrBusy = false → queue = t.chan.tsrByte :: t.chan.txContents ∧
        t.chan.txBits = frameBits s.chan.lcr) ∧
      t.quiet = { s.quiet with
        chan := { s.chan with
          thr := d
          tx := t.chan.tx
          tsrByte := t.chan.tsrByte
          tsrBusy := true
          txBits := t.chan.txBits
          lsr := (s.chan.lsr &&& 0x9F) ||| (if t.chan.txContents = [] then 0x20 else 0x00)
          pending := (s.chan.pending &&& 0x1D) ||| (if t.chan.txContents = [] then 0x02 else 0x00)
          iirId := identification t.chan.pending s.chan.ier
          intLine := interruptLevel t.chan.pending s.chan.ier }
        result := none }

/-- R505, R507, R1011: a divisor write stores its byte, completes a byte in the TSR at once (the transmit
callback, the next load and the flags as in an ordinary completion), and reloads the countdown with the new
baud constant, even where the byte is the one already there. -/
def Obligations.DivisorWritesReprogram : Prop :=
  ∀ (s : State) (d : Byte),
    (s.chan.lcr.getLsbD 7 = true → s.WriteDecodes 0 d (.wrDll d) ∧ s.WriteDecodes 1 d (.wrDlm d)) ∧
    (∀ (i : Instr) (c : Channel),
      (i = .wrDll d ∧ c = { s.chan with dll := d }) ∨ (i = .wrDlm d ∧ c = { s.chan with dlm := d }) →
      (c.tsrBusy = false → exec i s = .next { s with
        chan := { c with baudCnt := c.baudConst }, result := none }) ∧
      (c.tsrBusy = true → c.tx.Ok c.depth →
        ∃ t c', exec i s = .next t ∧ c.CompletesTo c' ∧ t.quiet = { s.quiet with
          chan := { c' with baudCnt := c.baudConst }
          events := dataCalls s.events ++ [.transmitByte c.cfg.handle c.cfg.sub c.tsrByte]
          result := none }))

/-! ### Control registers -/

/-- R602: an IER write stores the byte under the variant's mask, raises THRE where ETBEI is now set and
THRE is 1, and recomputes the identification and the line. -/
def Obligations.IerWriteStoresAndKicksThre : Prop :=
  ∀ (s : State) (d : Byte),
    (s.chan.lcr.getLsbD 7 = false → s.WriteDecodes 1 d (.wrIer d)) ∧
    ∃ (t : State) (ier : Byte) (pending : BitVec 5), exec (.wrIer d) s = .next t ∧
      ier = (if s.chan.cfg.variant.ext then d else d &&& 0x0F) ∧
      pending = (if ier.getLsbD 1 = true ∧ s.chan.lsr.getLsbD 5 = true then s.chan.pending ||| 0x02
        else s.chan.pending) ∧
      t.quiet = { s.quiet with
        chan := { s.chan with
          ier := ier
          pending := pending
          iirId := identification pending ier
          intLine := interruptLevel pending ier }
        result := none }

/-- R604, R809: an IIR read returns the identification as it was, and clears THRE only where THRE was the
source shown; otherwise it changes nothing. -/
def Obligations.IirReadClearsOnlyAShownThre : Prop :=
  ∀ s : State,
    (s.chan.bank650 = false → s.ReadDecodes 2 .rdIir) ∧
    ∃ t, exec .rdIir s = .next t ∧
      t.result = some ((if s.chan.fifoOn then 0xC0#8 else 0x00#8) ||| s.chan.iirId.setWidth 8) ∧
      (s.chan.iirId ≠ 0b0010 → t = { s with result := t.result }) ∧
      (s.chan.iirId = 0b0010 → t.quiet = { s.quiet with
        chan := { s.chan with
          pending := s.chan.pending &&& 0x1D
          iirId := identification (s.chan.pending &&& 0x1D) s.chan.ier
          intLine := interruptLevel (s.chan.pending &&& 0x1D) s.chan.ier }
        result := t.result })

/-- R605, R913, R914: an FCR write is ignored without a FIFO; otherwise it stores all but the self-clearing
bits, and flushes both sides where FCR[0] changes, or the side its clear bit names while the FIFO discipline
stays on. A byte in the TSR keeps shifting. -/
def Obligations.FcrWriteStoresAndFlushes : Prop :=
  ∀ (s : State) (d : Byte),
    (s.chan.bank650 = false → s.WriteDecodes 2 d (.wrFcr d)) ∧
    (s.chan.depth = 0 → exec (.wrFcr d) s = .next { s with result := none }) ∧
    (s.chan.depth ≠ 0 →
      ∃ (t : State) (flushRx flushTx thre : Bool) (lsr : Byte) (pending : BitVec 5),
        exec (.wrFcr d) s = .next t ∧
        flushRx = ((d.getLsbD 0 != s.chan.fcr.getLsbD 0) || (d.getLsbD 0 && d.getLsbD 1)) ∧
        flushTx = ((d.getLsbD 0 != s.chan.fcr.getLsbD 0) || (d.getLsbD 0 && d.getLsbD 2)) ∧
        thre = (d.getLsbD 0 || !s.chan.tsrBusy) ∧
        lsr = (if flushRx then s.chan.lsr &&& 0xFE else s.chan.lsr) ∧
        pending = (if flushRx then s.chan.pending &&& 0x0E else s.chan.pending) ∧
        t.quiet = { s.quiet with
          chan := { s.chan with
            fcr := d &&& 0xF9
            rx := if flushRx then ⟨s.chan.rx.buf, 0, 0, 0⟩ else s.chan.rx
            tx := if flushTx then ⟨s.chan.tx.buf, 0, 0, 0⟩ else s.chan.tx
            toArmed := if flushRx then false else s.chan.toArmed
            toCnt := if flushRx then 0 else s.chan.toCnt
            thrPending := if flushTx then false else s.chan.thrPending
            lsr :=
              if flushTx then (lsr &&& 0x9F) ||| (if thre then 0x20 else 0x00) |||
                (if s.chan.tsrBusy then 0x00 else 0x40)
              else lsr
            pending :=
              if flushTx = true ∧ thre = true ∧ s.chan.lsr.getLsbD 5 = false then pending ||| 0x02
              else pending
            iirId := identification t.chan.pending s.chan.ier
            intLine := interruptLevel t.chan.pending s.chan.ier }
          result := none })

/-- R612, R705: an MCR write stores the byte under the variant's mask; MSR[7:4] become the input latches or,
in loopback, the output lines; each changed line sets its delta, RI only when it falls; any delta of this
write raises MS. -/
def Obligations.McrWriteRecomputesModemStatus : Prop :=
  ∀ (s : State) (d : Byte),
    (s.chan.bank650 = false → s.WriteDecodes 4 d (.wrMcr d)) ∧
    ∃ (t : State) (mcr : Byte) (cts dsr ri dcd dCts dDsr tRi dDcd : Bool),
      exec (.wrMcr d) s = .next t ∧
      mcr = (if s.chan.cfg.variant.ext then d else d &&& 0x1F) ∧
      cts = (if mcr.getLsbD 4 then mcr.getLsbD 1 else s.chan.latches.cts) ∧
      dsr = (if mcr.getLsbD 4 then mcr.getLsbD 0 else s.chan.latches.dsr) ∧
      ri = (if mcr.getLsbD 4 then mcr.getLsbD 2 else s.chan.latches.ri) ∧
      dcd = (if mcr.getLsbD 4 then mcr.getLsbD 3 else s.chan.latches.dcd) ∧
      dCts = (s.chan.msr.getLsbD 4 != cts) ∧
      dDsr = (s.chan.msr.getLsbD 5 != dsr) ∧
      tRi = (s.chan.msr.getLsbD 6 && !ri) ∧
      dDcd = (s.chan.msr.getLsbD 7 != dcd) ∧
      t.chan.msr.getLsbD 4 = cts ∧ t.chan.msr.getLsbD 5 = dsr ∧
      t.chan.msr.getLsbD 6 = ri ∧ t.chan.msr.getLsbD 7 = dcd ∧
      t.chan.msr.getLsbD 0 = (s.chan.msr.getLsbD 0 || dCts) ∧
      t.chan.msr.getLsbD 1 = (s.chan.msr.getLsbD 1 || dDsr) ∧
      t.chan.msr.getLsbD 2 = (s.chan.msr.getLsbD 2 || tRi) ∧
      t.chan.msr.getLsbD 3 = (s.chan.msr.getLsbD 3 || dDcd) ∧
      ((dCts || dDsr || tRi || dDcd) = true →
        t.quiet = { s.quiet with
          chan := { s.chan with
            mcr := mcr
            msr := t.chan.msr
            pending := s.chan.pending ||| 0x08
            iirId := identification (s.chan.pending ||| 0x08) s.chan.ier
            intLine := interruptLevel (s.chan.pending ||| 0x08) s.chan.ier }
          result := none }) ∧
      ((dCts || dDsr || tRi || dDcd) = false →
        t = { s with chan := { s.chan with mcr := mcr, msr := t.chan.msr }, result := none })

/-- R616, R1303: an ICR write stores the byte in the entry SCR selects, except that the identification block
is read-only and that 0x00 into CSR runs the channel reset. -/
def Obligations.IcrWriteStoresOneEntry : Prop :=
  ∀ (s : State) (d : Byte),
    (s.chan.cfg.variant.x950 = true → s.chan.bank650 = true → s.WriteDecodes 5 d (.wrIcr d)) ∧
    (0x08 ≤ s.chan.scr.toNat → s.chan.scr.toNat ≤ 0x0B →
      exec (.wrIcr d) s = .next { s with result := none }) ∧
    (s.chan.scr = 0x0C → d = 0x00 → exec (.wrIcr d) s = exec .reset s) ∧
    ((s.chan.scr.toNat < 0x08 ∨ 0x0B < s.chan.scr.toNat) → (s.chan.scr ≠ 0x0C ∨ d ≠ 0x00) →
      Memory.wf s.chan.icr = true →
      ∃ t, exec (.wrIcr d) s = .next t ∧
        t = { s with chan := { s.chan with icr := t.chan.icr }, result := none } ∧
        Memory.wf t.chan.icr = true ∧
        ∀ i, Memory.read t.chan.icr i =
          if i = s.chan.scr.toNat then d else Memory.read s.chan.icr i)

/-! ### Status registers -/

/-- R701: an LSR read returns LSR as it was, then OE, PE, FE, BI and the RLS source are clear; DR, THRE,
TEMT and bit 7 are unchanged. -/
def Obligations.LsrReadClearsTheErrorBits : Prop :=
  ∀ s : State,
    (¬(s.chan.cfg.variant.x950 = true ∧ s.chan.bank650 = true) → s.ReadDecodes 5 .rdLsr) ∧
    ∃ t, exec .rdLsr s = .next t ∧ t.quiet = { s.quiet with
      chan := { s.chan with
        lsr := s.chan.lsr &&& 0xE1
        pending := s.chan.pending &&& 0x1B
        iirId := identification (s.chan.pending &&& 0x1B) s.chan.ier
        intLine := interruptLevel (s.chan.pending &&& 0x1B) s.chan.ier }
      result := some s.chan.lsr }

/-- R702: a forced LSR write replaces bits 4:0 and no other bit; a forced DR raises RDA, any forced error bit
raises RLS, forced zeros clear no source and recompute nothing. -/
def Obligations.LsrWriteForcesTheLowFiveBits : Prop :=
  ∀ (s : State) (d : Byte),
    (¬(s.chan.cfg.variant.x950 = true ∧ s.chan.bank650 = true) → s.WriteDecodes 5 d (.wrLsr d)) ∧
    (d &&& 0x1F = 0x00 → exec (.wrLsr d) s = .next { s with
      chan := { s.chan with lsr := s.chan.lsr &&& 0xE0 }, result := none }) ∧
    (d &&& 0x1F ≠ 0x00 →
      ∃ (t : State) (pending : BitVec 5), exec (.wrLsr d) s = .next t ∧
        pending = s.chan.pending ||| (if d.getLsbD 0 then 0x01 else 0x00) |||
          (if d &&& 0x1E ≠ 0x00 then 0x04 else 0x00) ∧
        t.quiet = { s.quiet with
          chan := { s.chan with
            lsr := (s.chan.lsr &&& 0xE0) ||| (d &&& 0x1F)
            pending := pending
            iirId := identification pending s.chan.ier
            intLine := interruptLevel pending s.chan.ier }
          result := none })

/-- R703, R704: an MSR read returns MSR as it was and clears the deltas and the MS source, the line bits
staying; a forced MSR write stores the whole byte, and raises MS where its low nibble is not 0. -/
def Obligations.MsrReadAndForcedWrite : Prop :=
  ∀ (s : State) (d : Byte),
    s.ReadDecodes 6 .rdMsr ∧ s.WriteDecodes 6 d (.wrMsr d) ∧
    (∃ t, exec .rdMsr s = .next t ∧ t.quiet = { s.quiet with
      chan := { s.chan with
        msr := s.chan.msr &&& 0xF0
        pending := s.chan.pending &&& 0x17
        iirId := identification (s.chan.pending &&& 0x17) s.chan.ier
        intLine := interruptLevel (s.chan.pending &&& 0x17) s.chan.ier }
      result := some s.chan.msr }) ∧
    (d &&& 0x0F = 0x00 → exec (.wrMsr d) s = .next { s with
      chan := { s.chan with msr := d }, result := none }) ∧
    (d &&& 0x0F ≠ 0x00 → ∃ t, exec (.wrMsr d) s = .next t ∧ t.quiet = { s.quiet with
      chan := { s.chan with
        msr := d
        pending := s.chan.pending ||| 0x08
        iirId := identification (s.chan.pending ||| 0x08) s.chan.ier
        intLine := interruptLevel (s.chan.pending ||| 0x08) s.chan.ier }
      result := none })

/-! ### The arbiter -/

/-- R803, R804, R805: `Recompute` identifies the highest-priority source that is pending and enabled, drives
the line, calls `interrupt_line` with the level, and changes nothing else. The sources' order of arrival
plays no part (R810): only `pending` and IER are read. -/
def Obligations.RecomputeIdentifiesByPriority : Prop :=
  ∀ k : Call,
    (recompute k).ch = { k.ch with
      iirId := (recompute k).ch.iirId, intLine := (recompute k).ch.intLine } ∧
    (recompute k).result = k.result ∧
    (recompute k).events = k.events ++ [.interruptLine k.ch.cfg.handle (recompute k).ch.intLine] ∧
    ((recompute k).ch.intLine = true ↔
      ∃ b, b < 4 ∧ k.ch.pending.getLsbD b = true ∧ k.ch.ier.getLsbD b = true) ∧
    ((recompute k).ch.intLine = false → (recompute k).ch.iirId = 0b0001) ∧
    (k.ch.pending.getLsbD 2 = true ∧ k.ch.ier.getLsbD 2 = true → (recompute k).ch.iirId = 0b0110) ∧
    (¬(k.ch.pending.getLsbD 2 = true ∧ k.ch.ier.getLsbD 2 = true) →
      k.ch.pending.getLsbD 0 = true ∧ k.ch.ier.getLsbD 0 = true →
      (recompute k).ch.iirId = if k.ch.pending.getLsbD 4 then 0b1100 else 0b0100) ∧
    (¬(k.ch.pending.getLsbD 2 = true ∧ k.ch.ier.getLsbD 2 = true) →
      ¬(k.ch.pending.getLsbD 0 = true ∧ k.ch.ier.getLsbD 0 = true) →
      k.ch.pending.getLsbD 1 = true ∧ k.ch.ier.getLsbD 1 = true → (recompute k).ch.iirId = 0b0010) ∧
    (¬(k.ch.pending.getLsbD 2 = true ∧ k.ch.ier.getLsbD 2 = true) →
      ¬(k.ch.pending.getLsbD 0 = true ∧ k.ch.ier.getLsbD 0 = true) →
      ¬(k.ch.pending.getLsbD 1 = true ∧ k.ch.ier.getLsbD 1 = true) →
      k.ch.pending.getLsbD 3 = true ∧ k.ch.ier.getLsbD 3 = true → (recompute k).ch.iirId = 0b0000)

/-- R807, R1202: the operations that can clear a pending bit, and the bits each can clear. No other
operation clears one; in particular, disabling a source in IER does not. -/
def Obligations.OnlyTheListedOperationsClearAPendingBit : Prop :=
  ∀ (i : Instr) (s t : State) (b : Nat), exec i s = .next t →
    s.chan.pending.getLsbD b = true → t.chan.pending.getLsbD b = false →
    (i = .rdRbr ∧ b = 0) ∨ (i = .rdRbrFifo ∧ (b = 0 ∨ b = 4)) ∨ (i = .rdIir ∧ b = 1) ∨
    (i = .rdLsr ∧ b = 2) ∨ (i = .rdMsr ∧ b = 3) ∨ (∃ d, i = .wrThr d ∧ b = 1) ∨
    (∃ d, i = .wrFcr d ∧ (b = 0 ∨ b = 4)) ∨ i = .reset ∨
    (i = .wrIcr 0x00 ∧ s.chan.scr = 0x0C)

/-- R104, R108, R113, R115, R705: RBR is written only by the receiver, each other register only by its own
write, MSR only by its read and write and by the recomputation of an MCR write, and the bank latch is entered
only by the bank-entry write and left only by another LCR write; beyond these only a reset changes them. -/
def Obligations.OnlyTheirOwnersWriteTheRegisters : Prop :=
  ∀ (i : Instr) (s t : State), exec i s = .next t → i ≠ .reset →
    ¬(i = .wrIcr 0x00 ∧ s.chan.scr = 0x0C) →
    (t.chan.rbr ≠ s.chan.rbr → i = .tick) ∧
    (t.chan.fcr ≠ s.chan.fcr → ∃ d, i = .wrFcr d) ∧
    (t.chan.scr ≠ s.chan.scr → ∃ d, i = .wrScr d) ∧
    (t.chan.lcr ≠ s.chan.lcr → ∃ d, i = .wrLcr d) ∧
    (t.chan.mcr ≠ s.chan.mcr → ∃ d, i = .wrMcr d) ∧
    (t.chan.ier ≠ s.chan.ier → ∃ d, i = .wrIer d) ∧
    (t.chan.thr ≠ s.chan.thr → ∃ d, i = .wrThr d) ∧
    (t.chan.msr ≠ s.chan.msr → i = .rdMsr ∨ (∃ d, i = .wrMsr d) ∨ ∃ d, i = .wrMcr d) ∧
    (t.chan.efr ≠ s.chan.efr → ∃ d, i = .wrEfr d) ∧
    (t.chan.xon1 ≠ s.chan.xon1 → ∃ d, i = .wrXon1 d) ∧
    (t.chan.dll ≠ s.chan.dll → ∃ d, i = .wrDll d) ∧
    (t.chan.dlm ≠ s.chan.dlm → ∃ d, i = .wrDlm d) ∧
    (t.chan.icr ≠ s.chan.icr → ∃ d, i = .wrIcr d) ∧
    (s.chan.bank650 = false → t.chan.bank650 = true → i = .wrLcrBank) ∧
    (s.chan.bank650 = true → t.chan.bank650 = false → ∃ d, i = .wrLcr d)

/-! ### The tick -/

/-- R1005, R1006, R1010: a tick counts the free-running baud countdown down by one, or reloads it with the baud
constant where it reaches 0. Without a service step nothing but the timeout, its source and the countdown
can change, with the identification and the line that follow from the source: the THRE, RLS and MS sources
stay, RDA and the marker too unless the timeout fires, and no receive or transmit callback is made. No tick
changes a register of the bus but RBR and LSR, and no tick touches the MS source. -/
def Obligations.TickCountsAndKeepsTheRegisters : Prop :=
  ∀ s : State, 1 ≤ s.chan.baudCnt →
    ∃ t, exec .tick s = .next t ∧
      t.comp = s.comp ∧ t.program = s.program ∧ t.pos = s.pos ∧ t.result = none ∧
      t.chan = { s.chan with
        rbr := t.chan.rbr, thrPending := t.chan.thrPending, iirId := t.chan.iirId, lsr := t.chan.lsr,
        pending := t.chan.pending, rx := t.chan.rx, tx := t.chan.tx, tsrBusy := t.chan.tsrBusy,
        tsrByte := t.chan.tsrByte, txBits := t.chan.txBits, baudCnt := t.chan.baudCnt,
        toArmed := t.chan.toArmed, toCnt := t.chan.toCnt, intLine := t.chan.intLine,
        rxIn := t.chan.rxIn } ∧
      t.chan.pending.getLsbD 3 = s.chan.pending.getLsbD 3 ∧
      (s.chan.IdentificationOk → t.chan.IdentificationOk) ∧
      (s.chan.baudCnt = 1 → t.chan.baudCnt = s.chan.baudConst) ∧
      (1 < s.chan.baudCnt → dataCalls t.events = dataCalls s.events ∧
        t.chan = { s.chan with
          iirId := t.chan.iirId, pending := t.chan.pending, toArmed := t.chan.toArmed,
          toCnt := t.chan.toCnt, intLine := t.chan.intLine, baudCnt := s.chan.baudCnt - 1 } ∧
        t.chan.pending.getLsbD 1 = s.chan.pending.getLsbD 1 ∧
        t.chan.pending.getLsbD 2 = s.chan.pending.getLsbD 2 ∧
        (s.chan.NoExpiry →
          t.chan.pending = s.chan.pending ∧
          t.chan.iirId = s.chan.iirId ∧ t.chan.intLine = s.chan.intLine))

/-- R909, R910, R911, R1007: a service step polls the receive callback once, unless the receiver is
disabled, and what it does with the answer in each discipline. An unread byte or a full FIFO keeps its
bytes and sets overrun; a discarded byte does not re-arm the timeout. RDA is raised by a byte at or above the
trigger level and not by one below it; what the timeout step of the same tick raises is
`TickRunsTheCharacterTimeout`'s. -/
def Obligations.TickReceivesAtMostOneByte : Prop :=
  ∀ s : State, s.chan.baudCnt = 1 → s.chan.rx.Ok s.chan.depth →
    ∃ t, exec .tick s = .next t ∧
      (s.chan.IdentificationOk → t.chan.IdentificationOk) ∧
      (s.chan.rxDisabled = true → t.chan.rxIn = s.chan.rxIn ∧
        polled s.chan.cfg.handle t.events = polled s.chan.cfg.handle s.events) ∧
      (s.chan.rxDisabled = false → t.chan.rxIn = s.chan.rxIn.tail ∧
        polled s.chan.cfg.handle t.events = polled s.chan.cfg.handle s.events ++ [s.chan.nextAnswer]) ∧
      (s.chan.rxDisabled = true ∨ s.chan.nextAnswer = none →
        t.chan.rbr = s.chan.rbr ∧ t.chan.rx = s.chan.rx ∧
        t.chan.lsr.extractLsb' 0 5 = s.chan.lsr.extractLsb' 0 5 ∧
        t.chan.pending.getLsbD 2 = s.chan.pending.getLsbD 2 ∧
        (s.chan.NoExpiry → t.chan.pending.getLsbD 0 = s.chan.pending.getLsbD 0)) ∧
      ∀ b, s.chan.rxDisabled = false → s.chan.nextAnswer = some b →
        (s.chan.fifoOn = false → t.chan.rx = s.chan.rx) ∧
        (s.chan.fifoOn = false → s.chan.lsr.getLsbD 0 = false →
          t.chan.rbr = b ∧ t.chan.pending.getLsbD 0 = true ∧
          t.chan.pending.getLsbD 2 = s.chan.pending.getLsbD 2 ∧
          t.chan.lsr.extractLsb' 0 5 = s.chan.lsr.extractLsb' 0 5 ||| 0x01) ∧
        (s.chan.fifoOn = false → s.chan.lsr.getLsbD 0 = true →
          t.chan.rbr = s.chan.rbr ∧ t.chan.pending.getLsbD 2 = true ∧
          t.chan.pending.getLsbD 0 = s.chan.pending.getLsbD 0 ∧
          t.chan.lsr.extractLsb' 0 5 = s.chan.lsr.extractLsb' 0 5 ||| 0x02) ∧
        (s.chan.fifoOn = true → t.chan.rbr = s.chan.rbr) ∧
        (s.chan.fifoOn = true → s.chan.rxContents.length < s.chan.depth →
          t.chan.rxContents = s.chan.rxContents ++ [b] ∧
          t.chan.lsr.extractLsb' 0 5 = s.chan.lsr.extractLsb' 0 5 ||| 0x01 ∧
          t.chan.toArmed = true ∧ t.chan.toCnt = 4 * frameBits s.chan.lcr * s.chan.baudConst ∧
          t.chan.pending.getLsbD 2 = s.chan.pending.getLsbD 2 ∧
          (s.chan.trigLevel ≤ s.chan.rxContents.length + 1 → t.chan.pending.getLsbD 0 = true) ∧
          (s.chan.rxContents.length + 1 < s.chan.trigLevel → s.chan.NoExpiry →
            t.chan.pending.getLsbD 0 = s.chan.pending.getLsbD 0)) ∧
        (s.chan.fifoOn = true → s.chan.rxContents.length = s.chan.depth →
          t.chan.rx = s.chan.rx ∧ t.chan.pending.getLsbD 2 = true ∧
          s.chan.TimeoutCounts t.chan ∧
          (s.chan.NoExpiry → t.chan.pending.getLsbD 0 = s.chan.pending.getLsbD 0) ∧
          t.chan.lsr.extractLsb' 0 5 = s.chan.lsr.extractLsb' 0 5 ||| 0x02)

/-- R907, R908, R1005, R1007: a service step takes one bit from a byte in the TSR, unless the transmitter is
disabled, and at the last bit completes the byte. The receive callback comes before the transmit callback,
and no other receive or transmit callback is made. -/
def Obligations.TickTransmitsBitByBit : Prop :=
  ∀ s : State, s.chan.baudCnt = 1 → s.chan.tx.Ok s.chan.depth →
    ∃ (t : State) (received : List Event), exec .tick s = .next t ∧
      received = (if s.chan.rxDisabled then []
        else [.receiveByte s.chan.cfg.handle s.chan.cfg.sub s.chan.nextAnswer]) ∧
      ((s.chan.txDisabled = true ∨ s.chan.tsrBusy = false) →
        dataCalls t.events = dataCalls s.events ++ received ∧
        t.chan.tsrBusy = s.chan.tsrBusy ∧ t.chan.tsrByte = s.chan.tsrByte ∧
        t.chan.txBits = s.chan.txBits ∧ t.chan.thrPending = s.chan.thrPending ∧
        t.chan.tx = s.chan.tx ∧ t.chan.lsr.extractLsb' 5 2 = s.chan.lsr.extractLsb' 5 2 ∧
        t.chan.pending.getLsbD 1 = s.chan.pending.getLsbD 1) ∧
      (s.chan.txDisabled = false → s.chan.tsrBusy = true → 1 < s.chan.txBits →
        dataCalls t.events = dataCalls s.events ++ received ∧
        t.chan.tsrBusy = true ∧ t.chan.tsrByte = s.chan.tsrByte ∧
        t.chan.txBits = s.chan.txBits - 1 ∧ t.chan.thrPending = s.chan.thrPending ∧
        t.chan.tx = s.chan.tx ∧ t.chan.lsr.extractLsb' 5 2 = s.chan.lsr.extractLsb' 5 2 ∧
        t.chan.pending.getLsbD 1 = s.chan.pending.getLsbD 1) ∧
      (s.chan.txDisabled = false → s.chan.tsrBusy = true → s.chan.txBits = 1 →
        dataCalls t.events = dataCalls s.events ++ received ++
          [.transmitByte s.chan.cfg.handle s.chan.cfg.sub s.chan.tsrByte] ∧
        ∃ c c' : Channel, c.CompletesTo c' ∧
          c = { s.chan with
            rbr := c.rbr, lsr := c.lsr, pending := c.pending, iirId := c.iirId, intLine := c.intLine,
            rx := c.rx, toArmed := c.toArmed, toCnt := c.toCnt, rxIn := c.rxIn, txBits := c.txBits,
            baudCnt := c.baudCnt } ∧
          c.lsr.extractLsb' 5 2 = s.chan.lsr.extractLsb' 5 2 ∧
          c.pending.getLsbD 1 = s.chan.pending.getLsbD 1 ∧
          t.chan = { c' with baudCnt := s.chan.baudConst })

/-- R1009, R1010: in every tick an armed timeout of the FIFO discipline with one tick left fires, raising both
bits of CTI, and no other tick touches the marker. In a tick that puts no byte into the receive FIFO (no service
step, receiver disabled, `NONE`, the unbuffered discipline, or a full FIFO that discards the byte) the timeout
only counts, and is disarmed when it fires. In a tick that receives no byte RDA changes only where it fires. (A
byte put into the FIFO re-arms it: `TickReceivesAtMostOneByte`.) -/
def Obligations.TickRunsTheCharacterTimeout : Prop :=
  ∀ s : State, ∃ t, exec .tick s = .next t ∧
    (s.chan.toArmed = true → s.chan.fifoOn = true → s.chan.toCnt = 1 →
      t.chan.pending.getLsbD 4 = true ∧ t.chan.pending.getLsbD 0 = true) ∧
    (s.chan.NoExpiry → t.chan.pending.getLsbD 4 = s.chan.pending.getLsbD 4) ∧
    ((1 < s.chan.baudCnt ∨ s.chan.rxDisabled = true ∨ s.chan.nextAnswer = none ∨
        s.chan.fifoOn = false ∨ s.chan.rx.count = s.chan.depth) →
      s.chan.TimeoutCounts t.chan) ∧
    ((1 < s.chan.baudCnt ∨ s.chan.rxDisabled = true ∨ s.chan.nextAnswer = none) → s.chan.NoExpiry →
      t.chan.pending.getLsbD 0 = s.chan.pending.getLsbD 0)

/-! ### Reset and creation -/

/-- R134, R1300, R1305: a reset gives every element of the channel its reset value, keeps the
configuration, makes no receive or transmit callback, and makes exactly one `interrupt_line` call, with
false. That it is one call rests on R1305, which the spec derives, and on the model's event log (log entry 13,
DEDUCED); the values of elements the variant lacks (FCR on a depth-0 variant, the bank latch without the
650-bank) are the model's choice (log entry 15, DESIGN CHOICE). -/
def Obligations.ResetRestoresEveryElement : Prop :=
  ∀ s : State, s.chan.FixedOk →
    ∃ t, exec .reset s = .next t ∧
      t = { s with
        chan := t.chan
        events := s.events ++ [.interruptLine s.chan.cfg.handle false]
        result := none } ∧
      t.chan.cfg = s.chan.cfg ∧
      t.chan.rbr = 0x00 ∧ t.chan.thr = 0x00 ∧ t.chan.thrPending = false ∧
      t.chan.ier = 0x00 ∧ t.chan.iirId = 0b0001 ∧ t.chan.fcr = 0x00 ∧
      t.chan.lcr = 0x00 ∧ t.chan.mcr = 0x00 ∧ t.chan.lsr = 0x60 ∧
      t.chan.msr.getLsbD 7 = s.chan.cfg.modemIn.dcd ∧ t.chan.msr.getLsbD 6 = s.chan.cfg.modemIn.ri ∧
      t.chan.msr.getLsbD 5 = s.chan.cfg.modemIn.dsr ∧ t.chan.msr.getLsbD 4 = s.chan.cfg.modemIn.cts ∧
      t.chan.msr.extractLsb' 0 4 = 0x0#4 ∧
      t.chan.scr = 0x00 ∧ t.chan.dll = 0x01 ∧ t.chan.dlm = 0x00 ∧ t.chan.bank650 = false ∧
      (s.chan.cfg.variant.hasBank650 = true → t.chan.efr = 0x00 ∧ t.chan.xon1 = 0x00) ∧
      (s.chan.cfg.variant.x950 = true →
        Memory.read t.chan.icr 0x01 = 0x20 ∧
        Memory.read t.chan.icr 0x03 =
          (if s.chan.cfg.clockSelect then s.chan.cfg.cksResetTrue else s.chan.cfg.cksResetFalse) ∧
        Memory.read t.chan.icr 0x08 = s.chan.cfg.id1 ∧ Memory.read t.chan.icr 0x09 = s.chan.cfg.id2 ∧
        Memory.read t.chan.icr 0x0A = s.chan.cfg.id3 ∧ Memory.read t.chan.icr 0x0B = s.chan.cfg.rev ∧
        ∀ i, i ∉ [0x01, 0x03, 0x08, 0x09, 0x0A, 0x0B] → Memory.read t.chan.icr i = 0x00) ∧
      t.chan.pending = 0 ∧
      (s.chan.cfg.variant.fifoCap = true → t.chan.rx = ⟨[], 0, 0, 0⟩ ∧ t.chan.tx = ⟨[], 0, 0, 0⟩) ∧
      t.chan.tsrBusy = false ∧ t.chan.tsrByte = 0x00 ∧ t.chan.txBits = 0 ∧
      t.chan.latches = s.chan.cfg.modemIn ∧
      t.chan.baudCnt = 1 ∧ t.chan.toArmed = false ∧ t.chan.toCnt = 0 ∧ t.chan.intLine = false

/-- R1301: on every variant and from every state, just after a reset LSR = 0x60, IER = 0, IIR reads 0x01 and
DL = 1. -/
def Obligations.ResetInvariantOnEveryVariant : Prop :=
  ∀ s : State, ∃ t u, exec .reset s = .next t ∧
    t.chan.lsr = 0x60 ∧ t.chan.ier = 0x00 ∧ t.chan.dlm ++ t.chan.dll = 0x0001#16 ∧
    exec .rdIir t = .next u ∧ u.result = some 0x01

/-- R1302, R1107: creation performs the reset, whatever the parameters: the created machine is unchanged by a
further reset, meets the invariant, and creation has made one `interrupt_line(…, false)` call per channel, a
composite's in child order. That the machine has these devices and that the stand-alone channel's call comes
first is the model's choice (log entry 1, DESIGN CHOICE); that it is one call per channel rests on the model's
event log (log entry 13, DEDUCED); and that an element a variant lacks (FCR, the ICR array, the bank latch) is
at 0, which the invariant says of the created channels, is the model's choice (log entry 15, DESIGN CHOICE). -/
def Obligations.CreationPerformsTheReset : Prop :=
  ∀ (sh : SharedParams) (p : ChildParams) (q : CompositeParams),
    (∃ t, exec .reset (State.create sh p q) = .next t ∧ t.chan = (State.create sh p q).chan) ∧
    (∃ t, exec .creset (State.create sh p q) = .next t ∧ t.comp = (State.create sh p q).comp) ∧
    (State.create sh p q).Inv ∧
    (State.create sh p q).events = .interruptLine .standalone false ::
      (match q with
        | .dual _ _ _ => [.interruptLine (.child 0) false, .interruptLine (.child 1) false]
        | .quad _ _ _ _ _ => [.interruptLine (.child 0) false, .interruptLine (.child 1) false,
            .interruptLine (.child 2) false, .interruptLine (.child 3) false])

/-- The state right after reset meets the machine's invariant. (Its parameters are the model's choice, log
entries 1 to 5; the invariant holds for every choice.) -/
def Obligations.ResetStateMeetsTheInvariant : Prop := State.reset.Inv

/-! ### The composite -/

/-- R1102: the aggregate offset selects child AO[3] on the dual, whose AO[4] is ignored, and child AO[4:3] on
the quad; the low three bits are the local offset, so child c's registers are at 8c to 8c + 7. -/
def Obligations.AggregateOffsetSelectsTheChild : Prop :=
  ∀ (d : Composite) (ao : AggregateOffset),
    d.childIndex ao < d.size ∧
    8 * d.childIndex ao + (localOf ao).toNat = ao.toNat % (8 * d.size) ∧
    d.childAt (d.childIndex ao) = some (d.selected ao) ∧
    d.childIndex ao = (if d.size = 2 then (ao.getLsbD 3).toNat
      else 2 * (ao.getLsbD 4).toNat + (ao.getLsbD 3).toNat)

/-- R1103: how the accesses are encoded, and that each does to the selected child, and returns, exactly what the same access does on
a stand-alone channel in that child's state, callbacks included; no other channel changes. -/
def Obligations.CompositeAccessActsOnTheSelectedChild : Prop :=
  (∀ (v : DecodeView) (ao : AggregateOffset) (d : Byte),
    decode v (.composite (0#1 ++ 0#1 ++ ao ++ d)) = .ok (.crd ao) ∧
    decode v (.composite (0#1 ++ 1#1 ++ ao ++ d)) = .ok (.cwr ao d)) ∧
  ∀ (s : State) (ao : AggregateOffset) (d : Byte) (i j : Instr),
    (i = .crd ao ∧ decode (s.comp.selected ao).view (.channel (0#1 ++ 0#1 ++ localOf ao ++ 0x00#8)) = .ok j) ∨
    (i = .cwr ao d ∧ decode (s.comp.selected ao).view (.channel (0#1 ++ 1#1 ++ localOf ao ++ d)) = .ok j) →
    ∃ t u, exec i s = .next t ∧ exec j { s with chan := s.comp.selected ao } = .next u ∧
      t.chan = s.chan ∧ t.program = s.program ∧ t.pos = s.pos ∧
      t.events = u.events ∧ t.result = u.result ∧
      t.comp.size = s.comp.size ∧
      ∀ n, t.comp.childAt n = if n = s.comp.childIndex ao then some u.chan else s.comp.childAt n

/-- R1104, R1105: CTICK and CRESET run the tick and the reset of a stand-alone channel on every child in
child order, each to completion before the next; nothing else changes. -/
def Obligations.CompositeTickAndResetRunInChildOrder : Prop :=
  (∀ v : DecodeView, decode v (.composite 0b100000000000000#15) = .ok .ctick ∧
    decode v (.composite 0b100000000000001#15) = .ok .creset) ∧
  ∀ (i j : Instr), (i = .ctick ∧ j = .tick) ∨ (i = .creset ∧ j = .reset) →
    (∀ (s : State) (c0 c1 : Channel), s.comp = .dual c0 c1 →
      ∃ t0 t1, exec j { s with chan := c0 } = .next t0 ∧
        exec j { s with chan := c1, events := t0.events } = .next t1 ∧
        exec i s = .next { s with
          comp := .dual t0.chan t1.chan, events := t1.events, result := none }) ∧
    (∀ (s : State) (c0 c1 c2 c3 : Channel), s.comp = .quad c0 c1 c2 c3 →
      ∃ t0 t1 t2 t3, exec j { s with chan := c0 } = .next t0 ∧
        exec j { s with chan := c1, events := t0.events } = .next t1 ∧
        exec j { s with chan := c2, events := t1.events } = .next t2 ∧
        exec j { s with chan := c3, events := t2.events } = .next t3 ∧
        exec i s = .next { s with
          comp := .quad t0.chan t1.chan t2.chan t3.chan, events := t3.events, result := none })

/-- R1101: the children of a created composite are numbered from 0; child i's tag is the parent's followed by
the decimal ordinal, and its sub-channel number is i. -/
def Obligations.ChildrenAreNumberedInOrder : Prop :=
  ∀ (sh shc : SharedParams) (p p0 p1 p2 p3 : ChildParams),
    (State.create sh p (.dual shc p0 p1)).comp.children.map (fun c => (c.cfg.tag, c.cfg.sub)) =
      [(shc.tag ++ ['0'], 0), (shc.tag ++ ['1'], 1)] ∧
    (State.create sh p (.quad shc p0 p1 p2 p3)).comp.children.map (fun c => (c.cfg.tag, c.cfg.sub)) =
      [(shc.tag ++ ['0'], 0), (shc.tag ++ ['1'], 1), (shc.tag ++ ['2'], 2), (shc.tag ++ ['3'], 3)]

/-- R1106, R1209: an operation on the stand-alone channel leaves every child as it was, and an operation on
the composite leaves the stand-alone channel as it was. -/
def Obligations.DevicesShareNoState : Prop :=
  ∀ (i : Instr) (s t : State), exec i s = .next t →
    (i.isComposite = false → t.comp = s.comp) ∧ (i.isComposite = true → t.chan = s.chan)

/-- R207, R1106: what an access to a child returns, and what becomes of the child, depends on that child's
state alone: not on a sibling, on the stand-alone channel, or on the callbacks made before. -/
def Obligations.NoOtherChannelInfluencesAChild : Prop :=
  ∀ (s s' : State) (ao : AggregateOffset) (d : Byte) (i : Instr), (i = .crd ao ∨ i = .cwr ao d) →
    s.comp.selected ao = s'.comp.selected ao →
    ∃ t t', exec i s = .next t ∧ exec i s' = .next t' ∧
      t.result = t'.result ∧ t.comp.selected ao = t'.comp.selected ao

/-! ### Invariants of every step -/

/-- R100, R129: no step changes a channel's configuration. -/
def Obligations.NoStepChangesAConfiguration : Prop :=
  ∀ s t : State, step s = .next t → t.channels.map (·.cfg) = s.channels.map (·.cfg)

/-- R808: between host operations the identification and the line always equal what `Recompute` would
compute. -/
def Obligations.StepsKeepTheIdentification : Prop :=
  ∀ s t : State, s.Everywhere Channel.IdentificationOk → step s = .next t →
    t.Everywhere Channel.IdentificationOk

/-- R811: between host operations the character-timeout marker stands only beside RDA, and only in the FIFO
discipline. -/
def Obligations.StepsKeepTheMarkerBesideRda : Prop :=
  ∀ s t : State, s.Everywhere Channel.MarkerOk → step s = .next t → t.Everywhere Channel.MarkerOk

/-- R128, R916: the TSR is busy exactly while bits remain, and the empty flags agree with what the
transmitter holds. -/
def Obligations.StepsKeepTheTransmitter : Prop :=
  ∀ s t : State, s.Everywhere Channel.TransmitterOk → step s = .next t →
    t.Everywhere Channel.TransmitterOk

/-- R126, R127, R916: both FIFOs stay circular buffers with tail = (head + count) mod Depth and at most Depth
bytes, in canonical storage. -/
def Obligations.StepsKeepTheFifos : Prop :=
  ∀ s t : State, s.Everywhere Channel.FifosOk → step s = .next t → t.Everywhere Channel.FifosOk

/-- R131, R916: the countdowns stay in their ranges, and the timeout is armed only in the FIFO discipline with
a byte waiting. -/
def Obligations.StepsKeepTheTimers : Prop :=
  ∀ s t : State, s.Everywhere Channel.TimersOk → step s = .next t → t.Everywhere Channel.TimersOk

/-- R106, R108, R110, R111, R115: the bits that are not stored read 0, and what a variant lacks stays as it
is. That an element a variant lacks has a place, and holds 0 there, is the model's choice (log entry 15, DESIGN
CHOICE). -/
def Obligations.StepsKeepTheFixedBits : Prop :=
  ∀ s t : State, s.Everywhere Channel.FixedOk → step s = .next t → t.Everywhere Channel.FixedOk

/-- R118, R121, R129: the ICR array stays in canonical form, its identification block holds the parameters,
and the modem latches hold `MODEM_IN`. -/
def Obligations.StepsKeepTheParameters : Prop :=
  ∀ s t : State, s.Everywhere Channel.ParametersOk → step s = .next t → t.Everywhere Channel.ParametersOk

/-- R132, R1204: the level last delivered to the host for each channel is the channel's `int_line`, after
every step. -/
def Obligations.StepsDeliverEveryLineLevel : Prop :=
  ∀ s t : State, s.IdentitiesOk → s.LinesDelivered → step s = .next t → t.IdentitiesOk ∧ t.LinesDelivered

/-- The machine's whole invariant is kept by every step. (Its part on elements a variant lacks is the model's
choice, log entry 15, DESIGN CHOICE.) -/
def Obligations.EveryStepKeepsTheInvariant : Prop :=
  ∀ s t : State, s.Inv → step s = .next t → t.Inv

/-! ### Time, and longer runs -/

/-- R1000, R1001, R1003, R1004, R1008, R131: the frame has 7 to 12 bits, the baud constant is at least 1 (which
R1004 derives) and at most 2 088 928, and the timeout at most 100 268 544 ticks (the maxima of R131), whatever
the registers hold. -/
def Obligations.DerivedQuantitiesStayInRange : Prop :=
  (∀ l : Byte, frameBits l =
    1 + (5 + (l &&& 0x03).toNat) + (if l.getLsbD 3 then 1 else 0) + (if l.getLsbD 2 then 2 else 1) ∧
    7 ≤ frameBits l ∧ frameBits l ≤ 12) ∧
  (∀ cpr : Byte, 8 ≤ prescaleEighths cpr ∧
    prescaleEighths cpr = (if cpr.toNat < 8 then 8 + cpr.toNat else cpr.toNat)) ∧
  (∀ c : Channel, 1 ≤ c.baudConst ∧ c.baudConst ≤ 2088928 ∧ c.timeoutTicks ≤ 100268544)

/-- R202, R1004: writing the low and then the high divisor byte, without the prescaler, gives a baud constant
equal to the 16-bit combination, and 1 for the combination 0; the countdown is loaded with it. -/
def Obligations.DivisorRoundTrip : Prop :=
  ∀ (s : State) (lo hi : Byte), (s.chan.cfg.variant.x950 && s.chan.mcr.getLsbD 7) = false →
    ∃ t u, exec (.wrDll lo) s = .next t ∧ exec (.wrDlm hi) t = .next u ∧
      u.chan.baudConst = (if 256 * hi.toNat + lo.toNat = 0 then 1 else 256 * hi.toNat + lo.toNat) ∧
      u.chan.baudCnt = u.chan.baudConst ∧ u.chan.dll = lo ∧ u.chan.dlm = hi

/-- R1006, R908: a byte in the TSR with F bits left goes out at the tick on which the F-th service step falls,
BaudConst() ticks after each other from the running countdown on, and not before; exactly that byte goes
out, and exactly once. -/
def Obligations.AByteGoesOutAfterItsLastBit : Prop :=
  ∀ s : State, s.chan.Inv → s.chan.tsrBusy = true → s.chan.txDisabled = false →
    (∀ n, n < s.chan.baudCnt + (s.chan.txBits - 1) * s.chan.baudConst →
      ∃ t, runOps (List.replicate n .tick) s = .next t ∧
        transmitted s.chan.cfg.handle t.events = transmitted s.chan.cfg.handle s.events) ∧
    ∃ t, runOps (List.replicate (s.chan.baudCnt + (s.chan.txBits - 1) * s.chan.baudConst) .tick) s =
        .next t ∧
      transmitted s.chan.cfg.handle t.events =
        transmitted s.chan.cfg.handle s.events ++ [s.chan.tsrByte]

/-- R1010: an armed timeout fires at the tick its countdown says, if no byte arrives and none is read, and
not before: until then neither RDA nor the marker changes. -/
def Obligations.TheTimeoutFiresWhenItsCountdownEnds : Prop :=
  ∀ s : State, s.chan.Inv → s.chan.toArmed = true → (∀ a ∈ s.chan.rxIn.take s.chan.toCnt, a = none) →
    (∀ n, n < s.chan.toCnt → ∃ t, runOps (List.replicate n .tick) s = .next t ∧
      t.chan.toArmed = true ∧ t.chan.pending.getLsbD 4 = s.chan.pending.getLsbD 4 ∧
      t.chan.pending.getLsbD 0 = s.chan.pending.getLsbD 0) ∧
    ∃ t, runOps (List.replicate s.chan.toCnt .tick) s = .next t ∧
      t.chan.toArmed = false ∧ t.chan.pending.getLsbD 4 = true ∧ t.chan.pending.getLsbD 0 = true

/-- R917: with the FIFO discipline on, Depth + 1 received bytes and no pop leave Depth bytes, overrun set and
RLS pending; Depth pops then return the first Depth bytes in order, those already waiting first. The ticks are
as many as Depth + 1 service steps take from the running countdown on (R1005). -/
def Obligations.FifoOverrunLaw : Prop :=
  ∀ (s : State) (bytes : List Byte) (later : List (Option Byte)),
    s.chan.Inv → s.chan.fifoOn = true → s.chan.rxDisabled = false →
    bytes.length = s.chan.depth + 1 → s.chan.rxIn = bytes.map some ++ later →
    ∃ t, runOps (List.replicate (s.chan.baudCnt + s.chan.depth * s.chan.baudConst) .tick) s = .next t ∧
      t.chan.rx.count = s.chan.depth ∧ t.chan.lsr.getLsbD 1 = true ∧ t.chan.pending.getLsbD 2 = true ∧
      returned (List.replicate s.chan.depth .rdRbrFifo) t = (s.chan.rxContents ++ bytes).take s.chan.depth

/-- R101, R900, R901, R1001, R1002, R1004, R1007, R1008: the capability table, and what the rules derive from the
registers by their own expressions: the discipline, the trigger level, the divisor in use, the baud constant with
and without the prescaler, the timeout's length, and the two disable bits of ACR = ICR[0x00] (CPR = ICR[0x01]). -/
def Obligations.DerivedQuantitiesFollowTheirRules : Prop :=
  [Variant.V8250, .V16450, .V16550, .V16650, .V16750, .V16950].map
      (fun v => (v.depth, v.fifoCap, v.hasBank650, v.x950, v.ext)) =
    [(0, false, false, false, false), (0, false, false, false, false), (16, true, false, false, false),
      (32, true, true, false, true), (64, true, false, false, true), (128, true, true, true, true)] ∧
  ∀ c : Channel,
    c.depth = c.cfg.variant.depth ∧
    (c.fifoOn = true ↔ c.cfg.variant.fifoCap = true ∧ c.fcr.getLsbD 0 = true) ∧
    [1, 4, 8, 14][(c.fcr.extractLsb' 6 2).toNat]? = some c.trigLevel ∧
    c.divisorEff =
      (if 256 * c.dlm.toNat + c.dll.toNat = 0 then 1 else 256 * c.dlm.toNat + c.dll.toNat) ∧
    (c.cfg.variant = .V16950 ∧ c.mcr.getLsbD 7 = true →
      c.baudConst = c.divisorEff * prescaleEighths (Memory.read c.icr 0x01) / 8) ∧
    (¬(c.cfg.variant = .V16950 ∧ c.mcr.getLsbD 7 = true) → c.baudConst = c.divisorEff) ∧
    c.timeoutTicks = 4 * frameBits c.lcr * c.baudConst ∧
    (c.rxDisabled = true ↔ c.cfg.variant = .V16950 ∧ (Memory.read c.icr 0x00).getLsbD 0 = true) ∧
    (c.txDisabled = true ↔ c.cfg.variant = .V16950 ∧ (Memory.read c.icr 0x00).getLsbD 1 = true)
end

