-- ==== Sys2Proof/Laws/State.lean ====
section
/-! SUPPORT. The small lemmas of the state updates: one per field per update, each by rfl, so that no later
proof unfolds one. -/

namespace Sys2Proof.Machine

section Calls
variable (k : Call) (f : Channel → Channel) (e : Event) (v : Byte)

@[simp] theorem Call.modify_ch : (k.modify f).ch = f k.ch := rfl
@[simp] theorem Call.modify_events : (k.modify f).events = k.events := rfl
@[simp] theorem Call.modify_result : (k.modify f).result = k.result := rfl
@[simp] theorem Call.emit_ch : (k.emit e).ch = k.ch := rfl
@[simp] theorem Call.emit_events : (k.emit e).events = k.events ++ [e] := rfl
@[simp] theorem Call.emit_result : (k.emit e).result = k.result := rfl
@[simp] theorem Call.ret_ch : (k.ret v).ch = k.ch := rfl
@[simp] theorem Call.ret_events : (k.ret v).events = k.events := rfl
@[simp] theorem Call.ret_result : (k.ret v).result = some v := rfl

end Calls

section Devices
variable (s : State) (op : Call → Call) (ao : AggregateOffset) (rest : List HostWord)

@[simp] theorem State.onChannel_chan : (s.onChannel op).chan = (op ⟨s.chan, s.events, none⟩).ch := rfl
@[simp] theorem State.onChannel_comp : (s.onChannel op).comp = s.comp := rfl
@[simp] theorem State.onChannel_program : (s.onChannel op).program = s.program := rfl
@[simp] theorem State.onChannel_pos : (s.onChannel op).pos = s.pos := rfl
@[simp] theorem State.onChannel_events :
    (s.onChannel op).events = (op ⟨s.chan, s.events, none⟩).events := rfl
@[simp] theorem State.onChannel_result :
    (s.onChannel op).result = (op ⟨s.chan, s.events, none⟩).result := rfl

@[simp] theorem State.onSelected_chan : (s.onSelected ao op).chan = s.chan := rfl
@[simp] theorem State.onSelected_comp : (s.onSelected ao op).comp =
    s.comp.replace ao (op ⟨s.comp.selected ao, s.events, none⟩).ch := rfl
@[simp] theorem State.onSelected_program : (s.onSelected ao op).program = s.program := rfl
@[simp] theorem State.onSelected_pos : (s.onSelected ao op).pos = s.pos := rfl
@[simp] theorem State.onSelected_events : (s.onSelected ao op).events =
    (op ⟨s.comp.selected ao, s.events, none⟩).events := rfl
@[simp] theorem State.onSelected_result : (s.onSelected ao op).result =
    (op ⟨s.comp.selected ao, s.events, none⟩).result := rfl

@[simp] theorem State.onEveryChild_chan : (s.onEveryChild op).chan = s.chan := by
  cases h : s.comp <;> simp [State.onEveryChild, h]
@[simp] theorem State.onEveryChild_program : (s.onEveryChild op).program = s.program := by
  cases h : s.comp <;> simp [State.onEveryChild, h]
@[simp] theorem State.onEveryChild_pos : (s.onEveryChild op).pos = s.pos := by
  cases h : s.comp <;> simp [State.onEveryChild, h]
@[simp] theorem State.onEveryChild_result : (s.onEveryChild op).result = none := by
  cases h : s.comp <;> simp [State.onEveryChild, h]

@[simp] theorem State.advance_chan : (s.advance rest).chan = s.chan := rfl
@[simp] theorem State.advance_comp : (s.advance rest).comp = s.comp := rfl
@[simp] theorem State.advance_program : (s.advance rest).program = rest := rfl
@[simp] theorem State.advance_pos : (s.advance rest).pos = s.pos + 1 := rfl
@[simp] theorem State.advance_events : (s.advance rest).events = s.events := rfl
@[simp] theorem State.advance_result : (s.advance rest).result = s.result := rfl

@[simp] theorem State.quiet_chan : s.quiet.chan = s.chan := rfl
@[simp] theorem State.quiet_comp : s.quiet.comp = s.comp := rfl
@[simp] theorem State.quiet_program : s.quiet.program = s.program := rfl
@[simp] theorem State.quiet_pos : s.quiet.pos = s.pos := rfl
@[simp] theorem State.quiet_events : s.quiet.events = dataCalls s.events := rfl
@[simp] theorem State.quiet_result : s.quiet.result = s.result := rfl

end Devices

section Children
variable (d : Composite) (ao : AggregateOffset) (c : Channel)

/-- The select bits of the dual as a number (R1102). -/
theorem selectBit_toNat : ∀ ao : AggregateOffset,
    (ao.extractLsb' 3 1).toNat = (ao.getLsbD 3).toNat := by decide

/-- The select bits of the quad as a number (R1102). -/
theorem selectBits_toNat : ∀ ao : AggregateOffset,
    (ao.extractLsb' 3 2).toNat = 2 * (ao.getLsbD 4).toNat + (ao.getLsbD 3).toNat := by decide

/-- The selected child is the one with the ordinal of R1102. -/
theorem Composite.childAt_childIndex : d.childAt (d.childIndex ao) = some (d.selected ao) := by
  cases d <;> simp only [Composite.childAt, Composite.childIndex, Composite.selected,
    Composite.children, selectBit_toNat, selectBits_toNat] <;>
    cases ao.getLsbD 3 <;> (try cases ao.getLsbD 4) <;> rfl

/-- A replacement is the selected child afterwards. -/
theorem Composite.selected_replace : (d.replace ao c).selected ao = c := by
  cases d <;> cases h3 : ao.getLsbD 3 <;> cases h4 : ao.getLsbD 4 <;>
    simp only [Composite.replace, Composite.selected, h3, h4] <;> rfl

/-- A replacement changes no other child and keeps the number of children. -/
theorem Composite.children_replace : (d.replace ao c).children = d.children.set (d.childIndex ao) c := by
  cases d <;> cases h3 : ao.getLsbD 3 <;> cases h4 : ao.getLsbD 4 <;>
    simp only [Composite.replace, Composite.children, Composite.childIndex, selectBit_toNat,
      selectBits_toNat, h3, h4] <;> rfl

end Children

section Channels
variable (c : Channel)

@[simp] theorem Channel.identified_pending : c.identified.pending = c.pending := rfl
@[simp] theorem Channel.identified_ier : c.identified.ier = c.ier := rfl
@[simp] theorem Channel.identified_iirId : c.identified.iirId = identification c.pending c.ier := rfl
@[simp] theorem Channel.identified_intLine : c.identified.intLine = interruptLevel c.pending c.ier := rfl
@[simp] theorem Channel.identified_lsr : c.identified.lsr = c.lsr := rfl
@[simp] theorem Channel.identified_msr : c.identified.msr = c.msr := rfl
@[simp] theorem Channel.identified_fcr : c.identified.fcr = c.fcr := rfl
@[simp] theorem Channel.identified_cfg : c.identified.cfg = c.cfg := rfl
@[simp] theorem Channel.identified_rx : c.identified.rx = c.rx := rfl
@[simp] theorem Channel.identified_tx : c.identified.tx = c.tx := rfl
@[simp] theorem Channel.identified_fifoOn : c.identified.fifoOn = c.fifoOn := rfl
@[simp] theorem Channel.identified_depth : c.identified.depth = c.depth := rfl
@[simp] theorem Channel.identified_tsrBusy : c.identified.tsrBusy = c.tsrBusy := rfl
@[simp] theorem Channel.identified_thrPending : c.identified.thrPending = c.thrPending := rfl

@[simp] theorem armTimeout_toArmed : (armTimeout c).toArmed = true := rfl
@[simp] theorem armTimeout_toCnt : (armTimeout c).toCnt = c.timeoutTicks := rfl
@[simp] theorem armTimeout_fifoOn : (armTimeout c).fifoOn = c.fifoOn := rfl
@[simp] theorem disarmTimeout_toArmed : (disarmTimeout c).toArmed = false := rfl
@[simp] theorem disarmTimeout_toCnt : (disarmTimeout c).toCnt = 0 := rfl
@[simp] theorem disarmTimeout_fifoOn : (disarmTimeout c).fifoOn = c.fifoOn := rfl
@[simp] theorem txStart_tsrByte (b : Byte) : (txStart b c).tsrByte = b := rfl
@[simp] theorem txStart_tsrBusy (b : Byte) : (txStart b c).tsrBusy = true := rfl
@[simp] theorem txStart_txBits (b : Byte) : (txStart b c).txBits = frameBits c.lcr := rfl

end Channels

end Sys2Proof.Machine
end

