-- ==== Sys2Proof/Laws/Arbiter.lean ====
section
/-! SUPPORT. The arbiter's operations (R801, R802, R804) in one line each, and what they do to the log of
callbacks. -/

namespace Sys2Proof.Machine

section Log
variable (h : Handle) (es es' : List Event) (e : Event)

@[simp] theorem dataCalls_nil : dataCalls [] = [] := rfl
@[simp] theorem dataCalls_append : dataCalls (es ++ es') = dataCalls es ++ dataCalls es' :=
  List.filter_append ..
@[simp] theorem dataCalls_line (b : Bool) : dataCalls [.interruptLine h b] = [] := rfl
@[simp] theorem dataCalls_receive (sub : Nat) (a : Option Byte) :
    dataCalls [.receiveByte h sub a] = [.receiveByte h sub a] := rfl
@[simp] theorem dataCalls_transmit (sub : Nat) (b : Byte) :
    dataCalls [.transmitByte h sub b] = [.transmitByte h sub b] := rfl

/-- The bytes transmitted are among the data callbacks. -/
theorem transmitted_dataCalls : transmitted h (dataCalls es) = transmitted h es := by
  induction es with
  | nil => rfl
  | cons e es ih =>
    cases e with
    | interruptLine g b => exact ih
    | receiveByte g sub a => exact ih
    | transmitByte g sub b =>
      have hd : dataCalls (.transmitByte g sub b :: es) = .transmitByte g sub b :: dataCalls es := rfl
      have hc (l : List Event) : transmitted h (.transmitByte g sub b :: l) =
          (Event.sentBy h (.transmitByte g sub b)).toList ++ transmitted h l := by
        by_cases hg : g = h <;> simp [transmitted, Event.sentBy, hg]
      rw [hd, hc, ih, ← hc es]

@[simp] theorem transmitted_append : transmitted h (es ++ es') = transmitted h es ++ transmitted h es' :=
  List.filterMap_append ..

@[simp] theorem polled_append : polled h (es ++ es') = polled h es ++ polled h es' :=
  List.filterMap_append ..
@[simp] theorem polled_receive (sub : Nat) (a : Option Byte) : polled h [.receiveByte h sub a] = [a] := by
  simp [polled, Event.answerTo]

/-- The answers polled are among the data callbacks. -/
theorem polled_dataCalls : polled h (dataCalls es) = polled h es := by
  induction es with
  | nil => rfl
  | cons e es ih =>
    have hc (l : List Event) : polled h (e :: l) = polled h [e] ++ polled h l := polled_append h [e] l
    cases e with
    | interruptLine g b => exact ih
    | receiveByte g sub a =>
      have hd : dataCalls (.receiveByte g sub a :: es) = .receiveByte g sub a :: dataCalls es := rfl
      rw [hd, hc, ih, ← hc es]
    | transmitByte g sub b => exact ih

/-- A line call about `h` is the level last delivered for `h`. -/
@[simp] theorem lineLevel_append_line (b : Bool) :
    lineLevel h (es ++ [.interruptLine h b]) = some b := by
  simp [lineLevel, Event.levelFor]

/-- A callback that is no line call about `h` leaves the level last delivered for `h`. -/
theorem lineLevel_append_of_none (he : e.levelFor h = none) :
    lineLevel h (es ++ [e]) = lineLevel h es := by
  simp [lineLevel, he]

end Log

section Operations
variable (src : BitVec 5) (k : Call)

@[simp] theorem recompute_ch : (recompute k).ch = k.ch.identified := rfl
@[simp] theorem recompute_events : (recompute k).events =
    k.events ++ [.interruptLine k.ch.cfg.handle (interruptLevel k.ch.pending k.ch.ier)] := rfl
@[simp] theorem recompute_result : (recompute k).result = k.result := rfl

@[simp] theorem trigger_ch :
    (trigger src k).ch = { k.ch with pending := k.ch.pending ||| src }.identified := rfl
@[simp] theorem trigger_events : (trigger src k).events = k.events ++
    [.interruptLine k.ch.cfg.handle (interruptLevel (k.ch.pending ||| src) k.ch.ier)] := rfl
@[simp] theorem trigger_result : (trigger src k).result = k.result := rfl

@[simp] theorem clear_ch :
    (clear src k).ch = { k.ch with pending := k.ch.pending &&& ~~~src }.identified := rfl
@[simp] theorem clear_events : (clear src k).events = k.events ++
    [.interruptLine k.ch.cfg.handle (interruptLevel (k.ch.pending &&& ~~~src) k.ch.ier)] := rfl
@[simp] theorem clear_result : (clear src k).result = k.result := rfl

end Operations

/-- After a recomputation the identification is right (R808). -/
theorem Channel.identified_ok (c : Channel) : c.identified.IdentificationOk := ⟨rfl, rfl⟩

/-- Where the identification is right already, a recomputation changes nothing. -/
theorem Channel.identified_eq {c : Channel} (h : c.IdentificationOk) : c.identified = c := by
  obtain ⟨h1, h2⟩ := h
  cases c
  simp_all [Channel.identified]

end Sys2Proof.Machine
end

