-- ==== Sys2Proof/Laws/Bits.lean ====
section
/-! SUPPORT. Bit facts: `setBit` as a mask, the fields of an encoded word, the frame's length, the prescale
factor's range. -/

namespace Sys2Proof.Machine

theorem setBit_dr_false : ∀ v : Byte, setBit v 0 false = v &&& 0xFE := by decide
theorem setBit_dr_true : ∀ v : Byte, setBit v 0 true = v ||| 0x01 := by decide
theorem setBit_oe_true : ∀ v : Byte, setBit v 1 true = v ||| 0x02 := by decide

/-- Both empty flags cleared. -/
theorem setBit_tx_none : ∀ v : Byte, setBit (setBit v 5 false) 6 false = v &&& 0x9F := by decide
/-- Both empty flags set. -/
theorem setBit_tx_both : ∀ v : Byte, setBit (setBit v 5 true) 6 true = v ||| 0x60 := by decide
/-- THRE set and TEMT clear. -/
theorem setBit_tx_thre : ∀ v : Byte, setBit (setBit v 5 true) 6 false = (v &&& 0x9F) ||| 0x20 := by decide

/-- The flags written are the flags read back, and no other bit changes. -/
theorem setBit_tx_bits : ∀ (v : Byte) (a b : Bool),
    (setBit (setBit v 5 a) 6 b).getLsbD 5 = a ∧ (setBit (setBit v 5 a) 6 b).getLsbD 6 = b ∧
    (setBit (setBit v 5 a) 6 b).extractLsb' 0 5 = v.extractLsb' 0 5 ∧
    (setBit (setBit v 5 a) 6 b).getLsbD 7 = v.getLsbD 7 := by decide

/-- The fields of a channel bus word are what was put together (R301). -/
theorem channelWord_fields (h w : BitVec 1) (a : Offset) (d : Byte) :
    (h ++ w ++ a ++ d).getLsbD 12 = h.getLsbD 0 ∧ (h ++ w ++ a ++ d).getLsbD 11 = w.getLsbD 0 ∧
    (h ++ w ++ a ++ d).extractLsb' 8 3 = a ∧ (h ++ w ++ a ++ d).extractLsb' 0 8 = d := by
  refine ⟨?_, ?_, ?_, ?_⟩
  · rw [BitVec.getLsbD_append, BitVec.getLsbD_append, BitVec.getLsbD_append]
    simp
  · rw [BitVec.getLsbD_append, BitVec.getLsbD_append, BitVec.getLsbD_append]
    simp
  · apply BitVec.eq_of_getLsbD_eq
    intro i hi
    rw [BitVec.getLsbD_extractLsb', BitVec.getLsbD_append, BitVec.getLsbD_append]
    simp [hi]
  · apply BitVec.eq_of_getLsbD_eq
    intro i hi
    rw [BitVec.getLsbD_extractLsb', BitVec.getLsbD_append]
    simp [hi]

/-- The fields of a composite bus word are what was put together (R304). -/
theorem compositeWord_fields (h w : BitVec 1) (ao : AggregateOffset) (d : Byte) :
    (h ++ w ++ ao ++ d).getLsbD 14 = h.getLsbD 0 ∧ (h ++ w ++ ao ++ d).getLsbD 13 = w.getLsbD 0 ∧
    (h ++ w ++ ao ++ d).extractLsb' 8 5 = ao ∧ (h ++ w ++ ao ++ d).extractLsb' 0 8 = d := by
  refine ⟨?_, ?_, ?_, ?_⟩
  · rw [BitVec.getLsbD_append, BitVec.getLsbD_append, BitVec.getLsbD_append]
    simp
  · rw [BitVec.getLsbD_append, BitVec.getLsbD_append, BitVec.getLsbD_append]
    simp
  · apply BitVec.eq_of_getLsbD_eq
    intro i hi
    rw [BitVec.getLsbD_extractLsb', BitVec.getLsbD_append, BitVec.getLsbD_append]
    simp [hi]
  · apply BitVec.eq_of_getLsbD_eq
    intro i hi
    rw [BitVec.getLsbD_extractLsb', BitVec.getLsbD_append]
    simp [hi]

/-- A bus word of a channel decodes by the full decode of R412 on its fields. -/
theorem decode_channelWord (v : DecodeView) (w : BitVec 1) (a : Offset) (d : Byte) :
    decode v (.channel (0#1 ++ w ++ a ++ d)) = .ok (decodeBus v (w.getLsbD 0) a d) := by
  obtain ⟨h12, h11, ha, hd⟩ := channelWord_fields 0#1 w a d
  simp only [decode, decodeChannelWord, h12, h11, ha, hd]
  simp

/-- A frame has 7 to 12 bits (R1000). -/
theorem frameBits_range : ∀ l : Byte, 7 ≤ frameBits l ∧ frameBits l ≤ 12 := by decide

/-- The prescale factor is at least 8 eighths and at most 255 (R1003). -/
theorem prescaleEighths_range : ∀ v : Byte, 8 ≤ prescaleEighths v ∧ prescaleEighths v ≤ 255 := by decide

end Sys2Proof.Machine
end

