-- ==== Sys2Proof/Laws/Memory.lean ====
section
/-! SUPPORT. The laws of byte storage: the canonical form is kept, and a read after a write. -/

namespace Sys2Proof.Machine

/-- A canonical form from a higher start is one from a lower start. -/
theorem Memory.wfFrom_mono {lo lo' : Nat} {m : Memory} (h : Memory.wfFrom lo m = true) (hle : lo' ≤ lo) :
    Memory.wfFrom lo' m = true := by
  cases m with
  | nil => rfl
  | cons cell rest =>
    obtain ⟨x, v⟩ := cell
    simp only [Memory.wfFrom, Bool.and_eq_true, decide_eq_true_eq] at h ⊢
    exact ⟨⟨by omega, h.1.2⟩, h.2⟩

/-- Below the start of a canonical form everything reads as 0x00. -/
theorem Memory.read_below {lo a : Nat} {m : Memory} (h : Memory.wfFrom lo m = true) (ha : a < lo) :
    Memory.read m a = 0x00 := by
  induction m generalizing lo with
  | nil => rfl
  | cons cell rest ih =>
    obtain ⟨x, v⟩ := cell
    simp only [Memory.wfFrom, Bool.and_eq_true, decide_eq_true_eq] at h
    have hx : x ≠ a := by omega
    simp only [Memory.read, hx, if_false]
    exact ih h.2 (by omega)

/-- A write keeps the canonical form. -/
theorem Memory.wfFrom_write {lo a : Nat} {m : Memory} (b : Byte) (h : Memory.wfFrom lo m = true)
    (ha : lo ≤ a) : Memory.wfFrom lo (Memory.write m a b) = true := by
  induction m generalizing lo with
  | nil =>
    simp only [Memory.write]
    split
    · rfl
    · next hb => simp_all [Memory.wfFrom]
  | cons cell rest ih =>
    obtain ⟨x, v⟩ := cell
    have h' := h
    simp only [Memory.wfFrom, Bool.and_eq_true, decide_eq_true_eq] at h'
    obtain ⟨⟨hlo, hv⟩, hrest⟩ := h'
    simp only [Memory.write]
    split
    · next hlt =>
      split
      · exact h
      · next hb => simp_all [Memory.wfFrom]
    · split
      · next hge heq =>
        split
        · exact Memory.wfFrom_mono hrest (by omega)
        · next hb => simp_all [Memory.wfFrom]
      · next hge hne =>
        have := ih hrest (by omega)
        simp_all [Memory.wfFrom]

theorem Memory.wf_write {m : Memory} (a : Nat) (b : Byte) (h : Memory.wf m = true) :
    Memory.wf (Memory.write m a b) = true :=
  Memory.wfFrom_write b h (Nat.zero_le a)

/-- A read after a write to the same address gives the value written. -/
theorem Memory.read_write_same {m : Memory} (a : Nat) (b : Byte) (h : Memory.wf m = true) :
    Memory.read (Memory.write m a b) a = b := by
  suffices ∀ lo, Memory.wfFrom lo m = true → Memory.read (Memory.write m a b) a = b from this 0 h
  clear h
  induction m with
  | nil =>
    intro lo _
    simp only [Memory.write]
    split
    · next hb => simp [Memory.read, hb]
    · simp [Memory.read]
  | cons cell rest ih =>
    obtain ⟨x, v⟩ := cell
    intro lo h
    have h' := h
    simp only [Memory.wfFrom, Bool.and_eq_true, decide_eq_true_eq] at h'
    simp only [Memory.write]
    split
    · next hlt =>
      split
      · next hb => subst hb; exact Memory.read_below (lo := x) (by simp_all [Memory.wfFrom]) hlt
      · simp [Memory.read]
    · split
      · next heq =>
        split
        · next hb => subst hb heq; exact Memory.read_below h'.2 (by omega)
        · simp [Memory.read]
      · next hne =>
        have hx : x ≠ a := fun e => hne e.symm
        simp [Memory.read, hx, ih (x + 1) h'.2]

/-- A write leaves every other address as it was. -/
theorem Memory.read_write_other {m : Memory} {a a' : Nat} (b : Byte) (hne : a' ≠ a) :
    Memory.read (Memory.write m a b) a' = Memory.read m a' := by
  have hne' : a ≠ a' := Ne.symm hne
  induction m with
  | nil => simp only [Memory.write]; split <;> simp [Memory.read, hne']
  | cons cell rest ih =>
    obtain ⟨x, v⟩ := cell
    simp only [Memory.write]
    split
    · split <;> simp [Memory.read, hne']
    · split
      · next heq => subst heq; split <;> simp [Memory.read, hne']
      · simp [Memory.read, ih]

theorem Memory.wf_nil : Memory.wf [] = true := rfl

/-- Dropping the 0x00 entries of a list with strictly rising addresses gives a canonical form. -/
theorem Memory.wfFrom_filter {lo : Nat} {m : Memory} (hlo : ∀ cell ∈ m, lo ≤ cell.1)
    (hp : m.Pairwise fun x y => x.1 < y.1) :
    Memory.wfFrom lo (m.filter fun cell => cell.2 != 0x00#8) = true := by
  induction m generalizing lo with
  | nil => rfl
  | cons cell rest ih =>
    obtain ⟨x, v⟩ := cell
    rw [List.pairwise_cons] at hp
    by_cases hv : v = 0x00#8
    · simp only [hv, bne_self_eq_false, Bool.false_eq_true, not_false_eq_true, List.filter_cons_of_neg]
      exact ih (fun c hc => hlo c (List.mem_cons_of_mem _ hc)) hp.2
    · have hv' : (v != 0x00#8) = true := by simpa using hv
      have := ih (lo := x + 1) (fun c hc => hp.1 c hc) hp.2
      have hx := hlo (x, v) (List.mem_cons_self ..)
      simp_all [Memory.wfFrom]

/-- The ICR array after reset is in canonical form, whatever the parameters. -/
theorem Memory.wf_initialIcr (g : ChannelConfig) : Memory.wf (initialIcr g) = true :=
  Memory.wfFrom_filter (fun _ _ => Nat.zero_le _) (by simp)

/-- Reading a list without its 0x00 entries, addresses rising, is reading the list. -/
theorem Memory.read_filter (m : Memory) (a : Nat) (hp : m.Pairwise fun x y => x.1 < y.1) :
    Memory.read (m.filter fun cell => cell.2 != 0x00#8) a = Memory.read m a := by
  induction m with
  | nil => rfl
  | cons cell rest ih =>
    obtain ⟨x, v⟩ := cell
    rw [List.pairwise_cons] at hp
    by_cases hv : v = 0x00#8
    · simp only [hv, bne_self_eq_false, Bool.false_eq_true, not_false_eq_true, List.filter_cons_of_neg,
        Memory.read, ih hp.2]
      split
      · next hx =>
        subst hx
        have := Memory.read_below (a := x) (Memory.wfFrom_filter (lo := x + 1) (fun c hc => hp.1 c hc) hp.2)
          (Nat.lt_succ_self x)
        rw [ih hp.2] at this
        exact this
      · rfl
    · have hv' : (v != 0x00#8) = true := by simpa using hv
      simp [hv', Memory.read, ih hp.2]

/-- The ICR entries after reset (R1300). -/
theorem Memory.read_initialIcr (g : ChannelConfig) (a : Nat) :
    Memory.read (initialIcr g) a =
      if a = 0x01 then 0x20 else if a = 0x03 then g.cksReset else if a = 0x08 then g.id1
      else if a = 0x09 then g.id2 else if a = 0x0A then g.id3 else if a = 0x0B then g.rev else 0x00 := by
  rw [initialIcr, Memory.read_filter _ _ (by simp)]
  simp only [Memory.read, eq_comm (a := a)]
  rfl

end Sys2Proof.Machine
end

