-- ==== Sys2Proof/Laws/Fifo.lean ====
section
/-! SUPPORT. The circular buffers (R902) as queues: a push appends, a pop takes the oldest byte, and both
keep the wrap invariant (R126, R127). -/

namespace Sys2Proof.Machine

/-- A wrapped sum of an index in range and an offset below the depth. -/
theorem wrap_add {depth h i : Nat} (hh : h < depth) (hi : i < depth) :
    (h + i) % depth = if h + i < depth then h + i else h + i - depth := by
  split
  · exact Nat.mod_eq_of_lt (by assumption)
  · rw [Nat.mod_eq_sub_mod (by omega), Nat.mod_eq_of_lt (by omega)]

/-- Distinct offsets below the depth wrap to distinct indices. -/
theorem wrap_ne {depth h i j : Nat} (hh : h < depth) (hi : i < j) (hj : j < depth) :
    (h + i) % depth ≠ (h + j) % depth := by
  rw [wrap_add hh (by omega), wrap_add hh hj]
  split <;> split <;> omega

/-- An index in range of a non-empty buffer is below the depth. -/
theorem Fifo.Ok.head_lt {depth : Nat} {f : Fifo} (h : f.Ok depth) (hd : 0 < depth) : f.head < depth := by
  have := h.head
  omega

theorem Fifo.contents_length (depth : Nat) (f : Fifo) : (f.contents depth).length = f.count := by
  simp [Fifo.contents]

theorem Fifo.contents_eq_nil {depth : Nat} {f : Fifo} : f.contents depth = [] ↔ f.count = 0 := by
  rw [← List.length_eq_zero_iff, Fifo.contents_length]

/-- A push appends the byte (R902). -/
theorem Fifo.contents_push {depth : Nat} {f : Fifo} (b : Byte) (h : f.Ok depth) (hc : f.count < depth) :
    (f.push depth b).contents depth = f.contents depth ++ [b] := by
  have hh : f.head < depth := h.head_lt (by omega)
  simp only [Fifo.contents, Fifo.push, List.range_succ, List.map_append, List.map_cons, List.map_nil]
  congr 1
  · apply List.map_congr_left
    intro i hi
    rw [Memory.read_write_other]
    rw [h.tail]
    exact wrap_ne hh (List.mem_range.mp hi) hc
  · rw [← h.tail, Memory.read_write_same _ _ h.wf]

/-- A push keeps the wrap invariant (R126). -/
theorem Fifo.Ok.push {depth : Nat} {f : Fifo} (b : Byte) (h : f.Ok depth) (hc : f.count < depth) :
    (f.push depth b).Ok depth where
  wf := Memory.wf_write _ _ h.wf
  head := h.head
  count := hc
  tail := by simp only [Fifo.push, h.tail, Nat.mod_add_mod, Nat.add_assoc]

/-- A pop takes the oldest byte and leaves the rest in order (R902). -/
theorem Fifo.contents_pop {depth : Nat} {f : Fifo} (h : f.Ok depth) (hc : 0 < f.count) :
    f.contents depth = f.front :: (f.pop depth).contents depth := by
  have hd : 0 < depth := by have := h.count; omega
  have hh : f.head < depth := h.head_lt hd
  obtain ⟨n, hn⟩ : ∃ n, f.count = n + 1 := ⟨f.count - 1, by omega⟩
  simp only [Fifo.contents, Fifo.pop, Fifo.front, hn, List.range_succ_eq_map, List.map_cons, List.map_map,
    Nat.add_zero, Nat.mod_eq_of_lt hh, Nat.add_sub_cancel, Nat.mod_add_mod]
  congr 1
  apply List.map_congr_left
  intro i _
  simp [Nat.add_assoc, Nat.add_comm 1 i]

/-- A pop keeps the wrap invariant (R126). -/
theorem Fifo.Ok.pop {depth : Nat} {f : Fifo} (h : f.Ok depth) (hc : 0 < f.count) : (f.pop depth).Ok depth where
  wf := h.wf
  head := by
    have hd : 0 < depth := by have := h.count; omega
    have : (f.head + 1) % depth < depth := Nat.mod_lt _ hd
    simp only [Fifo.pop]
    omega
  count := by have := h.count; simp only [Fifo.pop]; omega
  tail := by
    obtain ⟨n, hn⟩ : ∃ n, f.count = n + 1 := ⟨f.count - 1, by omega⟩
    simp only [Fifo.pop, h.tail, hn, Nat.add_sub_cancel, Nat.mod_add_mod]
    congr 1
    omega

/-- A flush empties the buffer and keeps the wrap invariant (R913, R914). -/
theorem Fifo.Ok.flush {depth : Nat} {f : Fifo} (h : f.Ok depth) : f.flush.Ok depth where
  wf := h.wf
  head := by simp [Fifo.flush]
  count := Nat.zero_le _
  tail := by simp [Fifo.flush]

theorem Fifo.contents_flush (depth : Nat) (f : Fifo) : f.flush.contents depth = [] := rfl

/-- An empty buffer with its indices at 0 meets the wrap invariant (R126: reset). -/
theorem Fifo.Ok.empty (depth : Nat) : (⟨[], 0, 0, 0⟩ : Fifo).Ok depth where
  wf := rfl
  head := by simp
  count := Nat.zero_le _
  tail := by simp

end Sys2Proof.Machine
end

