-- ==== Sys2Proof/Laws/PerInstr.lean ====
section
/-! SUPPORT. Laws about every operation as syntax, one lemma per constructor: the encoder writes the row's
fixed bits, transcribed here from the `width`, `mask` and `match` columns of spec/opcode_table.json. -/

namespace Sys2Proof.Laws.EncodesItsRow

/-- The columns of a row that fix its word. -/
structure Row where
  width : Nat
  mask : Nat
  pattern : Nat
deriving DecidableEq, Repr

/-- The row of each operation. -/
def row : Instr → Row
  | .rdRbr => ⟨13, 0x1F00, 0x0000⟩
  | .rdRbrFifo => ⟨13, 0x1F00, 0x0000⟩
  | .rdDll => ⟨13, 0x1F00, 0x0000⟩
  | .wrThr _ => ⟨13, 0x1F00, 0x0800⟩
  | .wrDll _ => ⟨13, 0x1F00, 0x0800⟩
  | .rdIer => ⟨13, 0x1F00, 0x0100⟩
  | .rdAsr => ⟨13, 0x1F00, 0x0100⟩
  | .rdDlm => ⟨13, 0x1F00, 0x0100⟩
  | .wrIer _ => ⟨13, 0x1F00, 0x0900⟩
  | .wrDlm _ => ⟨13, 0x1F00, 0x0900⟩
  | .rdIir => ⟨13, 0x1F00, 0x0200⟩
  | .rdEfr => ⟨13, 0x1F00, 0x0200⟩
  | .wrFcr _ => ⟨13, 0x1F00, 0x0A00⟩
  | .wrEfr _ => ⟨13, 0x1F00, 0x0A00⟩
  | .rdLcr => ⟨13, 0x1F00, 0x0300⟩
  | .wrLcr _ => ⟨13, 0x1F00, 0x0B00⟩
  | .wrLcrBank => ⟨13, 0x1FFF, 0x0BBF⟩
  | .rdMcr => ⟨13, 0x1F00, 0x0400⟩
  | .rdXon1 => ⟨13, 0x1F00, 0x0400⟩
  | .wrMcr _ => ⟨13, 0x1F00, 0x0C00⟩
  | .wrXon1 _ => ⟨13, 0x1F00, 0x0C00⟩
  | .rdLsr => ⟨13, 0x1F00, 0x0500⟩
  | .rdIcr => ⟨13, 0x1F00, 0x0500⟩
  | .wrLsr _ => ⟨13, 0x1F00, 0x0D00⟩
  | .wrIcr _ => ⟨13, 0x1F00, 0x0D00⟩
  | .rdMsr => ⟨13, 0x1F00, 0x0600⟩
  | .wrMsr _ => ⟨13, 0x1F00, 0x0E00⟩
  | .rdScr => ⟨13, 0x1F00, 0x0700⟩
  | .wrScr _ => ⟨13, 0x1F00, 0x0F00⟩
  | .tick => ⟨13, 0x1FFF, 0x1000⟩
  | .reset => ⟨13, 0x1FFF, 0x1001⟩
  | .crd _ => ⟨15, 0x6000, 0x0000⟩
  | .cwr _ _ => ⟨15, 0x6000, 0x2000⟩
  | .ctick => ⟨15, 0x7FFF, 0x4000⟩
  | .creset => ⟨15, 0x7FFF, 0x4001⟩

/-- The word has the row's width and the row's fixed bits. -/
def Statement (i : Instr) : Prop :=
  match encode i with
  | .channel w => (row i).width = 13 ∧ w &&& BitVec.ofNat 13 (row i).mask = BitVec.ofNat 13 (row i).pattern
  | .composite w => (row i).width = 15 ∧ w &&& BitVec.ofNat 15 (row i).mask = BitVec.ofNat 15 (row i).pattern

/-- The fixed bits of a channel write are its top five: H = 0, W = 1 and A. -/
theorem write_fixed (a : Offset) (d : Byte) :
    (0#1 ++ 1#1 ++ a ++ d) &&& BitVec.ofNat 13 0x1F00 = BitVec.ofNat 13 (0x0800 + 0x100 * a.toNat) := by
  have hm : BitVec.ofNat 13 0x1F00 = 0x1F#5 ++ 0#8 := by decide
  have hp : ∀ a : Offset, ((0#1 ++ 1#1 ++ a) &&& 0x1F#5) ++ 0#8 =
      BitVec.ofNat 13 (0x0800 + 0x100 * a.toNat) := by decide
  rw [hm, BitVec.and_append, BitVec.and_zero, hp]

/-- The fixed bits of a composite access are its top two: H = 0 and W. -/
theorem composite_fixed (w : BitVec 1) (ao : AggregateOffset) (d : Byte) :
    (0#1 ++ w ++ ao ++ d) &&& BitVec.ofNat 15 0x6000 = BitVec.ofNat 15 (0x2000 * w.toNat) := by
  have hm : BitVec.ofNat 15 0x6000 = 0b11#2 ++ 0#5 ++ 0#8 := by decide
  have hp : ∀ w : BitVec 1, ((0#1 ++ w) &&& 0b11#2) ++ 0#5 ++ 0#8 =
      BitVec.ofNat 15 (0x2000 * w.toNat) := by decide
  rw [hm, BitVec.and_append, BitVec.and_append, BitVec.and_zero, BitVec.and_zero, hp]

theorem rdRbr : Statement .rdRbr := ⟨rfl, rfl⟩
theorem rdRbrFifo : Statement .rdRbrFifo := ⟨rfl, rfl⟩
theorem rdDll : Statement .rdDll := ⟨rfl, rfl⟩
theorem wrThr (d : Byte) : Statement (.wrThr d) := ⟨rfl, write_fixed 0 d⟩
theorem wrDll (d : Byte) : Statement (.wrDll d) := ⟨rfl, write_fixed 0 d⟩
theorem rdIer : Statement .rdIer := ⟨rfl, rfl⟩
theorem rdAsr : Statement .rdAsr := ⟨rfl, rfl⟩
theorem rdDlm : Statement .rdDlm := ⟨rfl, rfl⟩
theorem wrIer (d : Byte) : Statement (.wrIer d) := ⟨rfl, write_fixed 1 d⟩
theorem wrDlm (d : Byte) : Statement (.wrDlm d) := ⟨rfl, write_fixed 1 d⟩
theorem rdIir : Statement .rdIir := ⟨rfl, rfl⟩
theorem rdEfr : Statement .rdEfr := ⟨rfl, rfl⟩
theorem wrFcr (d : Byte) : Statement (.wrFcr d) := ⟨rfl, write_fixed 2 d⟩
theorem wrEfr (d : Byte) : Statement (.wrEfr d) := ⟨rfl, write_fixed 2 d⟩
theorem rdLcr : Statement .rdLcr := ⟨rfl, rfl⟩
theorem wrLcr (d : Byte) : Statement (.wrLcr d) := ⟨rfl, write_fixed 3 d⟩
theorem wrLcrBank : Statement .wrLcrBank := ⟨rfl, rfl⟩
theorem rdMcr : Statement .rdMcr := ⟨rfl, rfl⟩
theorem rdXon1 : Statement .rdXon1 := ⟨rfl, rfl⟩
theorem wrMcr (d : Byte) : Statement (.wrMcr d) := ⟨rfl, write_fixed 4 d⟩
theorem wrXon1 (d : Byte) : Statement (.wrXon1 d) := ⟨rfl, write_fixed 4 d⟩
theorem rdLsr : Statement .rdLsr := ⟨rfl, rfl⟩
theorem rdIcr : Statement .rdIcr := ⟨rfl, rfl⟩
theorem wrLsr (d : Byte) : Statement (.wrLsr d) := ⟨rfl, write_fixed 5 d⟩
theorem wrIcr (d : Byte) : Statement (.wrIcr d) := ⟨rfl, write_fixed 5 d⟩
theorem rdMsr : Statement .rdMsr := ⟨rfl, rfl⟩
theorem wrMsr (d : Byte) : Statement (.wrMsr d) := ⟨rfl, write_fixed 6 d⟩
theorem rdScr : Statement .rdScr := ⟨rfl, rfl⟩
theorem wrScr (d : Byte) : Statement (.wrScr d) := ⟨rfl, write_fixed 7 d⟩
theorem tick : Statement .tick := ⟨rfl, rfl⟩
theorem reset : Statement .reset := ⟨rfl, rfl⟩
theorem crd (ao : AggregateOffset) : Statement (.crd ao) := ⟨rfl, composite_fixed 0#1 ao 0x00⟩
theorem cwr (ao : AggregateOffset) (d : Byte) : Statement (.cwr ao d) := ⟨rfl, composite_fixed 1#1 ao d⟩
theorem ctick : Statement .ctick := ⟨rfl, rfl⟩
theorem creset : Statement .creset := ⟨rfl, rfl⟩

end Sys2Proof.Laws.EncodesItsRow
end

