-- ==== Sys2Proof/Laws/Pipeline.lean ====
section
/-! SUPPORT. What the pipeline's and the timer's procedures can do: one lemma per procedure for the channel,
one for the data callbacks, one for the value returned. -/

namespace Sys2Proof.Machine

variable (k : Call) (b v : Byte)

/-- `UpdateTxFlags` (R903): the flags, and the THRE source when LSR[5] rises. -/
theorem updateTxFlags_ch : (updateTxFlags k).ch =
    if !k.ch.lsr.getLsbD 5 && k.ch.holdingEmpty then
      { k.ch with lsr := k.ch.lsrWithTxFlags, pending := k.ch.pending ||| srcThre }.identified
    else { k.ch with lsr := k.ch.lsrWithTxFlags } := by
  simp only [updateTxFlags]
  split <;> rfl

@[simp] theorem updateTxFlags_dataCalls : dataCalls (updateTxFlags k).events = dataCalls k.events := by
  simp only [updateTxFlags]
  split <;> simp

@[simp] theorem updateTxFlags_result : (updateTxFlags k).result = k.result := by
  simp only [updateTxFlags]
  split <;> rfl

@[simp] theorem txWriteUnbuf_dataCalls : dataCalls (txWriteUnbuf v k).events = dataCalls k.events := by
  simp [txWriteUnbuf]

@[simp] theorem txWriteUnbuf_result : (txWriteUnbuf v k).result = k.result := by
  simp [txWriteUnbuf]

@[simp] theorem txWriteFifo_dataCalls : dataCalls (txWriteFifo v k).events = dataCalls k.events := by
  simp [txWriteFifo]

@[simp] theorem txWriteFifo_result : (txWriteFifo v k).result = k.result := by
  simp [txWriteFifo]

/-- `TxComplete` (R907) hands over exactly the byte in the TSR. -/
@[simp] theorem txComplete_dataCalls : dataCalls (txComplete k).events =
    dataCalls k.events ++ [.transmitByte k.ch.cfg.handle k.ch.cfg.sub k.ch.tsrByte] := by
  simp [txComplete]

@[simp] theorem txComplete_result : (txComplete k).result = k.result := by simp [txComplete]

/-- `TxServiceStep` (R908): nothing without a byte in the TSR; else one bit, and the completion at 0. -/
theorem txServiceStep_dataCalls : dataCalls (txServiceStep k).events = dataCalls k.events ++
    (if k.ch.tsrBusy ∧ k.ch.txBits - 1 = 0 then
      [.transmitByte k.ch.cfg.handle k.ch.cfg.sub k.ch.tsrByte] else []) := by
  simp only [txServiceStep]
  split <;> simp_all
  split <;> simp_all

@[simp] theorem txServiceStep_result : (txServiceStep k).result = k.result := by
  simp only [txServiceStep]
  split
  · split <;> simp
  · rfl

@[simp] theorem rxAcceptUnbuf_dataCalls : dataCalls (rxAcceptUnbuf b k).events = dataCalls k.events := by
  simp only [rxAcceptUnbuf]
  split <;> simp

@[simp] theorem rxAcceptUnbuf_result : (rxAcceptUnbuf b k).result = k.result := by
  simp only [rxAcceptUnbuf]
  split <;> rfl

@[simp] theorem rxAcceptFifo_dataCalls : dataCalls (rxAcceptFifo b k).events = dataCalls k.events := by
  simp only [rxAcceptFifo]
  split
  · simp
  · split <;> simp

@[simp] theorem rxAcceptFifo_result : (rxAcceptFifo b k).result = k.result := by
  simp only [rxAcceptFifo]
  split
  · rfl
  · split <;> rfl

@[simp] theorem rxAccept_dataCalls (a : Option Byte) :
    dataCalls (rxAccept a k).events = dataCalls k.events := by
  cases a with
  | none => rfl
  | some b => simp only [rxAccept]; split <;> simp

@[simp] theorem rxAccept_result (a : Option Byte) : (rxAccept a k).result = k.result := by
  cases a with
  | none => rfl
  | some b => simp only [rxAccept]; split <;> simp

/-- `RxServiceStep` (R911) polls the receive callback exactly once. -/
@[simp] theorem rxServiceStep_dataCalls : dataCalls (rxServiceStep k).events =
    dataCalls k.events ++ [.receiveByte k.ch.cfg.handle k.ch.cfg.sub k.ch.nextAnswer] := by
  simp [rxServiceStep, callRx]

@[simp] theorem rxServiceStep_result : (rxServiceStep k).result = k.result := by
  simp [rxServiceStep, callRx]

@[simp] theorem rxPop_dataCalls : dataCalls (rxPop k).events = dataCalls k.events := by simp [rxPop]

@[simp] theorem rxPop_result : (rxPop k).result = some k.ch.popValue := rfl

@[simp] theorem rxFlush_events : (rxFlush k).events = k.events := rfl
@[simp] theorem rxFlush_result : (rxFlush k).result = k.result := rfl
@[simp] theorem txFlush_dataCalls : dataCalls (txFlush k).events = dataCalls k.events := by simp [txFlush]
@[simp] theorem txFlush_result : (txFlush k).result = k.result := by simp [txFlush]

/-- `TimeoutStep` (R1010): counts an armed timeout of the FIFO discipline, and at 0 disarms it and raises CTI. -/
theorem timeoutStep_ch : (timeoutStep k).ch =
    if k.ch.toArmed && k.ch.fifoOn then
      if k.ch.toCnt - 1 = 0 then
        { k.ch with toCnt := k.ch.toCnt - 1, toArmed := false, pending := k.ch.pending ||| srcCti }.identified
      else { k.ch with toCnt := k.ch.toCnt - 1 }
    else k.ch := by
  simp only [timeoutStep, Call.modify]
  split
  · by_cases hc : k.ch.toCnt - 1 = 0
    · simp only [hc, ↓reduceIte, trigger_ch]
    · simp only [hc, ↓reduceIte]
  · rfl

/-- Where it does not fire, `TimeoutStep` changes nothing but the countdown. -/
theorem timeoutStep_ch_of_noExpiry (h : k.ch.NoExpiry) :
    (timeoutStep k).ch = { k.ch with toCnt := (timeoutStep k).ch.toCnt } := by
  rw [timeoutStep_ch]
  split
  · rename_i ha
    have := h (Bool.and_eq_true _ _ ▸ ha).1 (Bool.and_eq_true _ _ ▸ ha).2
    rw [if_neg (by omega)]
  · rfl

/-- `TimeoutStep` by itself meets what a tick without an accepted byte does to the timeout. -/
theorem timeoutStep_counts : k.ch.TimeoutCounts (timeoutStep k).ch := by
  rw [timeoutStep_ch]
  refine ⟨fun ha hf hc => ?_, fun ha hf hc => ?_, fun h => ?_⟩
  · rw [if_pos (by simp [ha, hf]), if_neg (by omega)]
    exact ⟨ha, rfl⟩
  · rw [if_pos (by simp [ha, hf]), if_pos (by omega)]
    exact ⟨rfl, by simp [Channel.identified, hc]⟩
  · rw [if_neg (by rcases h with h | h <;> simp [h])]
    exact ⟨rfl, rfl⟩

@[simp] theorem timeoutStep_dataCalls : dataCalls (timeoutStep k).events = dataCalls k.events := by
  simp only [timeoutStep]
  split
  · split <;> simp
  · rfl

@[simp] theorem timeoutStep_result : (timeoutStep k).result = k.result := by
  simp only [timeoutStep]
  split
  · split <;> rfl
  · rfl

@[simp] theorem serviceStep_result : (serviceStep k).result = k.result := by
  simp only [serviceStep]
  split <;> split <;> simp

@[simp] theorem tickCall_result : (tickCall k).result = k.result := by
  simp only [tickCall]
  split <;> simp

/-- `DivisorReprogram` (R1011) hands over the byte in the TSR, if there is one, and no other. -/
theorem divisorReprogram_dataCalls : dataCalls (divisorReprogram k).events = dataCalls k.events ++
    (if k.ch.tsrBusy then [.transmitByte k.ch.cfg.handle k.ch.cfg.sub k.ch.tsrByte] else []) := by
  simp only [divisorReprogram]
  split <;> simp

@[simp] theorem divisorReprogram_result : (divisorReprogram k).result = k.result := by
  simp only [divisorReprogram]
  split <;> simp

@[simp] theorem resetCall_ch : (resetCall k).ch = (resetRegisters k.ch).identified := rfl
@[simp] theorem resetCall_dataCalls : dataCalls (resetCall k).events = dataCalls k.events := by
  simp [resetCall]
@[simp] theorem resetCall_result : (resetCall k).result = k.result := rfl

end Sys2Proof.Machine
end

