-- ==== Sys2Proof/Tests/Slice0.lean ====
section
/-! SUPPORT. The model's own tests. Expected results come from spec/: the pattern strings of
spec/opcode_table.json, the examples of the rules, and the vectors of 95_test_vectors.md, as each group says.
The last part shows, for every obligation with hypotheses, concrete states and operands that meet them. -/

namespace Sys2Proof.Tests

open Sys2Proof Sys2Proof.Machine

/-- A channel of variant `v` in its reset state, with `MODEM_IN` all 0. -/
def chanOf (v : Variant) : Channel :=
  Channel.initial (Config.standalone Config.defaultShared { Config.defaultParams with variant := v })

/-- The reset machine with `c` as the stand-alone channel. -/
def on (c : Channel) : State := { State.reset with chan := c }

/-- The outcome is a next state of which `p` holds. -/
def gives (o : Host.Outcome State Fault Refusal) (p : State → Bool) : Bool :=
  match o with
  | .next t => p t
  | .fault _ => false
  | .refused _ => false

/-- A channel with the FIFO discipline on, a byte waiting in each FIFO, the last bit of a byte in the TSR, an
armed timeout one tick from its end, and the data-available source shown. It meets every invariant. -/
def busyChan : Channel :=
  { chanOf .V16950 with
    fcr := 0x01
    lcr := 0x03
    ier := 0x0F
    lsr := 0x01
    pending := 0x01
    iirId := 0b0100
    intLine := true
    rx := ⟨[(3, 0x55)], 3, 4, 1⟩
    tx := ⟨[(127, 0x42)], 127, 0, 1⟩
    tsrBusy := true
    tsrByte := 0x41
    txBits := 1
    toArmed := true
    toCnt := 1 }

/-- A machine whose devices are all in use, with an operation waiting. -/
def busyState : State where
  chan := busyChan
  comp := .dual
    { busyChan with cfg := Config.child Config.defaultShared 0 Config.defaultParams }
    { busyChan with cfg := Config.child Config.defaultShared 1 Config.defaultParams }
  program := [.channel 0x1000#13]
  pos := 7
  events := [.interruptLine .standalone true, .interruptLine (.child 0) true, .interruptLine (.child 1) true]
  result := none

/-! ### Well-formedness: every check refuses an ill-formed instruction (R101, R305) -/

theorem test_wf_rdRbrFifo : Instr.wellFormed .V8250 .rdRbrFifo = false := by decide
theorem test_wf_rdAsr : Instr.wellFormed .V16650 .rdAsr = false := by decide
theorem test_wf_rdEfr : Instr.wellFormed .V16750 .rdEfr = false := by decide
theorem test_wf_wrEfr : Instr.wellFormed .V16550 (.wrEfr 0x10) = false := by decide
theorem test_wf_wrLcr : Instr.wellFormed .V16650 (.wrLcr 0xBF) = false := by decide
theorem test_wf_wrLcr_other : Instr.wellFormed .V16550 (.wrLcr 0xBF) = true := by decide
theorem test_wf_wrLcrBank : Instr.wellFormed .V16550 .wrLcrBank = false := by decide
theorem test_wf_rdXon1 : Instr.wellFormed .V16750 .rdXon1 = false := by decide
theorem test_wf_wrXon1 : Instr.wellFormed .V8250 (.wrXon1 0x11) = false := by decide
theorem test_wf_rdIcr : Instr.wellFormed .V16650 .rdIcr = false := by decide
theorem test_wf_wrIcr : Instr.wellFormed .V16650 (.wrIcr 0x10) = false := by decide

/-! ### Decoding: words written bit by bit from the pattern strings of spec/opcode_table.json (H, W, A, D),
the ignored D field of a read partly set -/

/-- Just after reset on `V16950`. -/
def plain : DecodeView := .afterReset .V16950
/-- With LCR[7] = 1. -/
def dlab : DecodeView := { plain with dlab := true }
/-- With the bank open. -/
def bank : DecodeView := { plain with bank := true }

theorem test_decode_rdRbr : decode plain (.channel 0b00000_10000001#13) = .ok .rdRbr := by decide
theorem test_decode_rdRbrFifo :
    decode { plain with fifoOn := true } (.channel 0b00000_00000000#13) = .ok .rdRbrFifo := by decide
theorem test_decode_rdDll : decode dlab (.channel 0b00000_00000001#13) = .ok .rdDll := by decide
theorem test_decode_wrThr : decode plain (.channel 0b01000_01000001#13) = .ok (.wrThr 0x41) := by decide
theorem test_decode_wrDll : decode dlab (.channel 0b01000_10000010#13) = .ok (.wrDll 0x82) := by decide
theorem test_decode_rdIer : decode plain (.channel 0b00001_00000000#13) = .ok .rdIer := by decide
theorem test_decode_rdAsr :
    decode { plain with asr := true } (.channel 0b00001_00000000#13) = .ok .rdAsr := by decide
theorem test_decode_rdDlm :
    decode { dlab with asr := true } (.channel 0b00001_00000000#13) = .ok .rdDlm := by decide
theorem test_decode_wrIer :
    decode { plain with asr := true } (.channel 0b01001_00001111#13) = .ok (.wrIer 0x0F) := by decide
theorem test_decode_wrDlm : decode dlab (.channel 0b01001_00010010#13) = .ok (.wrDlm 0x12) := by decide
theorem test_decode_rdIir : decode plain (.channel 0b00010_00000000#13) = .ok .rdIir := by decide
theorem test_decode_rdEfr : decode bank (.channel 0b00010_00000000#13) = .ok .rdEfr := by decide
theorem test_decode_wrFcr : decode plain (.channel 0b01010_11000001#13) = .ok (.wrFcr 0xC1) := by decide
theorem test_decode_wrEfr : decode bank (.channel 0b01010_00010000#13) = .ok (.wrEfr 0x10) := by decide
theorem test_decode_rdLcr : decode bank (.channel 0b00011_00000000#13) = .ok .rdLcr := by decide
theorem test_decode_wrLcr : decode bank (.channel 0b01011_00000011#13) = .ok (.wrLcr 0x03) := by decide
theorem test_decode_wrLcr_literal :
    decode (.afterReset .V16550) (.channel 0b01011_10111111#13) = .ok (.wrLcr 0xBF) := by decide
theorem test_decode_wrLcrBank : decode plain (.channel 0b01011_10111111#13) = .ok .wrLcrBank := by decide
theorem test_decode_rdMcr : decode plain (.channel 0b00100_00000000#13) = .ok .rdMcr := by decide
theorem test_decode_rdXon1 : decode bank (.channel 0b00100_00000000#13) = .ok .rdXon1 := by decide
theorem test_decode_wrMcr : decode plain (.channel 0b01100_00010010#13) = .ok (.wrMcr 0x12) := by decide
theorem test_decode_wrXon1 : decode bank (.channel 0b01100_00010001#13) = .ok (.wrXon1 0x11) := by decide
theorem test_decode_rdLsr :
    decode { bank with variant := .V16650 } (.channel 0b00101_00000000#13) = .ok .rdLsr := by decide
theorem test_decode_rdIcr : decode bank (.channel 0b00101_00000000#13) = .ok .rdIcr := by decide
theorem test_decode_wrLsr : decode plain (.channel 0b01101_00000011#13) = .ok (.wrLsr 0x03) := by decide
theorem test_decode_wrIcr : decode bank (.channel 0b01101_00010000#13) = .ok (.wrIcr 0x10) := by decide
theorem test_decode_rdMsr : decode plain (.channel 0b00110_00000000#13) = .ok .rdMsr := by decide
theorem test_decode_wrMsr : decode plain (.channel 0b01110_00000001#13) = .ok (.wrMsr 0x01) := by decide
theorem test_decode_rdScr : decode bank (.channel 0b00111_00000000#13) = .ok .rdScr := by decide
theorem test_decode_wrScr : decode bank (.channel 0b01111_01011010#13) = .ok (.wrScr 0x5A) := by decide
theorem test_decode_tick : decode bank (.channel 0b1000000000000#13) = .ok .tick := by decide
theorem test_decode_reset : decode dlab (.channel 0b1000000000001#13) = .ok .reset := by decide
theorem test_decode_crd : decode plain (.composite 0b00_11011_00000000#15) = .ok (.crd 0x1B) := by decide
theorem test_decode_cwr : decode plain (.composite 0b01_11001_00000010#15) = .ok (.cwr 0x19 0x02) := by decide
theorem test_decode_ctick : decode plain (.composite 0b100000000000000#15) = .ok .ctick := by decide
theorem test_decode_creset : decode plain (.composite 0b100000000000001#15) = .ok .creset := by decide

/-- R307: the first and the last code that spells no operation. -/
theorem test_decode_refuses :
    decode plain (.channel 0x1002#13) = .error (.undefinedHostCode 0x1002#13) ∧
    decode plain (.channel 0x1FFF#13) = .error (.undefinedHostCode 0x1FFF#13) ∧
    decode plain (.composite 0x4002#15) = .error (.undefinedCompositeCode 0x4002#15) ∧
    decode plain (.composite 0x7FFF#15) = .error (.undefinedCompositeCode 0x7FFF#15) := by decide

/-- The words of programs P1 and P5 of 95_test_vectors.md, from the encoder. -/
theorem test_encode_words :
    encode (.wrLcr 0x03) = .channel 0xB03#13 ∧ encode (.wrThr 0x41) = .channel 0x841#13 ∧
    encode .rdIir = .channel 0x200#13 ∧ encode .tick = .channel 0x1000#13 ∧
    encode (.cwr 0x1B 0x03) = .composite 0x3B03#15 ∧ encode (.crd 0x0B) = .composite 0x0B00#15 := by decide

/-- R309: `SETDIV` expands into four writes (the words of vector E5's divisor). -/
theorem test_setdiv : Asm.words (.setDiv 0x1234 0x03) =
    [.channel 0xB83#13, .channel 0x834#13, .channel 0x912#13, .channel 0xB03#13] := by decide

/-- A word put in place as the next operation is decoded and run (LCR write of vector P1). -/
theorem test_withFetchWord :
    decodeTableWord 16 0x0B03 = some (.wrLcr 0x03) ∧
    gives (step (State.reset.withFetchWord 16 0x0B03)) (fun t => t.chan.lcr = 0x03 && t.pos = 1) = true := by
  decide

/-- A composite word put in place (step 2 of P5): child 3's LCR. -/
theorem test_withFetchWord_composite :
    decodeTableWord 16 0x3B03 = some (.cwr 0x1B 0x03) ∧
    gives (step (State.reset.withFetchWord 16 0x3B03))
      (fun t => (t.comp.selected 0x1B).lcr = 0x03 && (t.comp.selected 0x03).lcr = 0x00) = true := by
  decide

/-! ### One step of each operation, from the examples of its rule -/

/-- R501. -/
theorem test_rdRbr : gives (exec .rdRbr (on { chanOf .V8250 with rbr := 0x41, lsr := 0x61, pending := 0x01 }))
    (fun t => t.result = some 0x41 && t.chan.lsr = 0x60 && t.chan.pending = 0) = true := by decide
/-- R501: the clear removes bit 0 only (R802: pending = 0x13 becomes 0x12). -/
theorem test_rdRbr_marker : gives (exec .rdRbr (on { chanOf .V8250 with pending := 0x13 }))
    (fun t => t.chan.pending = 0x12) = true := by decide
/-- R502: FIFO [0x31, 0x32], trigger level 1. -/
theorem test_rdRbrFifo : gives (exec .rdRbrFifo (on { chanOf .V16550 with
      fcr := 0x01, lsr := 0x61, pending := 0x01, rx := ⟨[(0, 0x32), (15, 0x31)], 15, 1, 2⟩ }))
    (fun t => t.result = some 0x31 && t.chan.rx.count = 1 && t.chan.lsr = 0x61 && t.chan.pending = 0x01 &&
      t.chan.toCnt = 28) = true := by decide
/-- R912: FIFO [0x55], pending = 0x11, trigger 4. -/
theorem test_rdRbrFifo_last : gives (exec .rdRbrFifo (on { chanOf .V16550 with
      fcr := 0x41, lsr := 0x61, pending := 0x11, rx := ⟨[(0, 0x55)], 0, 1, 1⟩, toArmed := true, toCnt := 3 }))
    (fun t => t.result = some 0x55 && t.chan.pending = 0 && t.chan.lsr = 0x60 && !t.chan.toArmed) = true := by
  decide
/-- R504: after reset the divisor's low byte is 1. -/
theorem test_rdDll : gives (exec .rdDll State.reset) (fun t => t.result = some 0x01) = true := by decide
/-- R503, V41.3: unbuffered, 8N1. -/
theorem test_wrThr : gives (exec (.wrThr 0x41) (on { chanOf .V8250 with lcr := 0x03 }))
    (fun t => t.chan.tsrBusy && t.chan.tsrByte = 0x41 && t.chan.txBits = 10 && t.chan.lsr = 0x00) = true := by
  decide
/-- R906, V41.5: an idle FIFO transmitter, THRE raised in the same write. -/
theorem test_wrThr_fifo : gives (exec (.wrThr 0x41) (on { chanOf .V16550 with
      lcr := 0x03, fcr := 0x01, ier := 0x02 }))
    (fun t => t.chan.txBits = 10 && t.chan.tx.count = 0 && t.chan.lsr = 0x20 && t.chan.iirValue = 0xC2 &&
      t.chan.intLine) = true := by decide
/-- R505: DLM = 0. -/
theorem test_wrDll : gives (exec (.wrDll 0x0C) (on (chanOf .V8250)))
    (fun t => t.chan.divisor = 12 && t.chan.baudCnt = 12) = true := by decide
/-- R1011, V46.3: a byte with 4 bits left completes at once. -/
theorem test_wrDll_completes : gives (exec (.wrDll 0x02) (on { chanOf .V8250 with
      lcr := 0x83, lsr := 0x00, tsrBusy := true, tsrByte := 0x41, txBits := 4 }))
    (fun t => transmitted .standalone t.events = [0x41] && t.chan.lsr = 0x60 && t.chan.pending = 0x02 &&
      t.chan.baudCnt = 2) = true := by decide
/-- R601: V42.1's stored value. -/
theorem test_rdIer : gives (exec .rdIer (on { chanOf .V8250 with ier := 0x0F }))
    (fun t => t.result = some 0x0F) = true := by decide
/-- R603: the value is the free value of this draw, and IER is unchanged. -/
theorem test_rdAsr : exec .rdAsr State.reset = .next { State.reset with
    chan := { State.reset.chan with draws := 1 }, result := some (Config.asrByte .standalone 0) } := rfl
/-- R506. -/
theorem test_rdDlm : gives (exec .rdDlm (on { chanOf .V8250 with dlm := 0x12 }))
    (fun t => t.result = some 0x12) = true := by decide
/-- R602: after reset, the THRE kick. -/
theorem test_wrIer : gives (exec (.wrIer 0x02) (on (chanOf .V16550)))
    (fun t => t.chan.pending = 0x02 && t.chan.iirValue = 0x02 && t.chan.intLine) = true := by decide
/-- R602, V42.1: the mask without `Ext`. -/
theorem test_wrIer_mask : gives (exec (.wrIer 0xFF) (on (chanOf .V8250)))
    (fun t => t.chan.ier = 0x0F && t.chan.pending = 0x02) = true := by decide
/-- R507: DLL = 0x80. -/
theorem test_wrDlm : gives (exec (.wrDlm 0x01) (on { chanOf .V8250 with dll := 0x80 }))
    (fun t => t.chan.divisor = 384 && t.chan.baudCnt = 384) = true := by decide
/-- R604: pending = 0x0A, IER = 0x0F. -/
theorem test_rdIir : gives (exec .rdIir (on { chanOf .V8250 with
      ier := 0x0F, pending := 0x0A, iirId := 0b0010, intLine := true }))
    (fun t => t.result = some 0x02 && t.chan.pending = 0x08 && t.chan.iirValue = 0x00) = true := by decide
/-- R604, P3 step 4: RLS is shown, so nothing is cleared. -/
theorem test_rdIir_other : gives (exec .rdIir (on { chanOf .V8250 with
      ier := 0x0F, pending := 0x0F, iirId := 0b0110, intLine := true }))
    (fun t => t.result = some 0x06 && t.chan.pending = 0x0F) = true := by decide
/-- R606, V42.7. -/
theorem test_rdEfr : gives (exec .rdEfr (on { chanOf .V16650 with efr := 0x10, bank650 := true }))
    (fun t => t.result = some 0x10) = true := by decide
/-- R605, V42.6: the receive side is cleared while the discipline stays on. -/
theorem test_wrFcr : gives (exec (.wrFcr 0x03) (on { chanOf .V16550 with
      fcr := 0x01, lsr := 0x61, pending := 0x01, rx := ⟨[(0, 0x01), (1, 0x02)], 0, 2, 2⟩,
      toArmed := true, toCnt := 27 }))
    (fun t => t.chan.rx.count = 0 && t.chan.lsr = 0x60 && !t.chan.toArmed && t.chan.toCnt = 0 &&
      t.chan.iirValue = 0xC1) = true := by decide
/-- R605, V42.4: ignored without a FIFO. -/
theorem test_wrFcr_ignored : gives (exec (.wrFcr 0x01) (on (chanOf .V8250)))
    (fun t => t.chan.fcr = 0x00) = true := by decide
/-- R607, P6 step 2. -/
theorem test_wrEfr : gives (exec (.wrEfr 0x10) (on { chanOf .V16650 with bank650 := true }))
    (fun t => t.chan.efr = 0x10 && t.chan.fcr = 0x00) = true := by decide
/-- R608. -/
theorem test_rdLcr : gives (exec .rdLcr (on { chanOf .V8250 with lcr := 0x83 }))
    (fun t => t.result = some 0x83) = true := by decide
/-- R609, V40.6: the bank is left and the byte stored. -/
theorem test_wrLcr : gives (exec (.wrLcr 0x83) (on { chanOf .V16650 with bank650 := true }))
    (fun t => t.chan.lcr = 0x83 && !t.chan.bank650) = true := by decide
/-- R610, V40.2: LCR is unchanged. -/
theorem test_wrLcrBank : gives (exec .wrLcrBank (on { chanOf .V16650 with lcr := 0x03 }))
    (fun t => t.chan.lcr = 0x03 && t.chan.bank650) = true := by decide
/-- R611, V42.8's stored value. -/
theorem test_rdMcr : gives (exec .rdMcr (on { chanOf .V8250 with mcr := 0x1F }))
    (fun t => t.result = some 0x1F) = true := by decide
/-- R613. -/
theorem test_rdXon1 : gives (exec .rdXon1 (on { chanOf .V16650 with xon1 := 0x11, bank650 := true }))
    (fun t => t.result = some 0x11) = true := by decide
/-- R612: `MODEM_IN` all 0, IER = 0x08, loop and RTS. -/
theorem test_wrMcr : gives (exec (.wrMcr 0x12) (on { chanOf .V8250 with ier := 0x08 }))
    (fun t => t.chan.msr = 0x11 && t.chan.pending = 0x08 && t.chan.iirValue = 0x00 && t.chan.intLine) = true := by
  decide
/-- R705: the example with DCD, DSR and CTS up. -/
theorem test_wrMcr_loop : gives (exec (.wrMcr 0x10) (on { chanOf .V8250 with
      msr := 0xB0, latches := ⟨true, false, true, true⟩ }))
    (fun t => t.chan.msr = 0x0B && t.chan.pending = 0x08) = true := by decide
/-- R614. -/
theorem test_wrXon1 : gives (exec (.wrXon1 0x11) (on { chanOf .V16650 with bank650 := true }))
    (fun t => t.chan.xon1 = 0x11 && t.chan.mcr = 0x00) = true := by decide
/-- R701. -/
theorem test_rdLsr : gives (exec .rdLsr (on { chanOf .V8250 with lsr := 0x63, pending := 0x05 }))
    (fun t => t.result = some 0x63 && t.chan.lsr = 0x61 && t.chan.pending = 0x01) = true := by decide
/-- R615, V40.4: the identification. -/
theorem test_rdIcr : gives (exec .rdIcr (on { chanOf .V16950 with scr := 0x01, bank650 := true }))
    (fun t => t.result = some 0x20) = true := by decide
/-- R702. -/
theorem test_wrLsr : gives (exec (.wrLsr 0x03) (on { chanOf .V8250 with ier := 0x0F }))
    (fun t => t.chan.lsr = 0x63 && t.chan.pending = 0x05 && t.chan.iirValue = 0x06) = true := by decide
/-- R702: bits 7:5 are not forceable (V70.1 forces 0x7F). -/
theorem test_wrLsr_mask : gives (exec (.wrLsr 0xFF) (on { chanOf .V8250 with lsr := 0x00 }))
    (fun t => t.chan.lsr = 0x1F) = true := by decide
/-- R616: CPR. -/
theorem test_wrIcr : gives (exec (.wrIcr 0x10) (on { chanOf .V16950 with scr := 0x01, bank650 := true }))
    (fun t => t.chan.cpr = 0x10) = true := by decide
/-- R1303, V42.12: the CSR soft reset drops the byte in the TSR. -/
theorem test_wrIcr_csr : gives (exec (.wrIcr 0x00) (on { chanOf .V16950 with
      scr := 0x0C, bank650 := true, lcr := 0x03, lsr := 0x00, tsrBusy := true, tsrByte := 0x41, txBits := 10 }))
    (fun t => t.chan.lsr = 0x60 && t.chan.lcr = 0x00 && !t.chan.bank650 && !t.chan.tsrBusy &&
      transmitted .standalone t.events = []) = true := by decide
/-- R703. -/
theorem test_rdMsr : gives (exec .rdMsr (on { chanOf .V8250 with msr := 0x11, pending := 0x08 }))
    (fun t => t.result = some 0x11 && t.chan.msr = 0x10 && t.chan.pending = 0) = true := by decide
/-- R704. -/
theorem test_wrMsr : gives (exec (.wrMsr 0x01) (on { chanOf .V8250 with ier := 0x08 }))
    (fun t => t.chan.msr = 0x01 && t.chan.pending = 0x08 && t.chan.intLine) = true := by decide
/-- R508. -/
theorem test_rdScr : gives (exec .rdScr (on { chanOf .V8250 with scr := 0x5A }))
    (fun t => t.result = some 0x5A) = true := by decide
/-- R509. -/
theorem test_wrScr : gives (exec (.wrScr 0x5A) (on (chanOf .V8250)))
    (fun t => t.chan.scr = 0x5A && t.result = none) = true := by decide
/-- R1005, E2 step 3: the last bit of a byte. -/
theorem test_tick : gives (exec .tick (on { chanOf .V16550 with
      lsr := 0x00, tsrBusy := true, tsrByte := 0x41, txBits := 1 }))
    (fun t => transmitted .standalone t.events = [0x41] && t.chan.lsr = 0x60 && t.chan.pending = 0x02) = true := by
  decide
/-- R910, R1009, P2 step 4: a byte accepted below the trigger level arms the timeout for 40 ticks. -/
theorem test_tick_receive : gives (exec .tick (on ({ chanOf .V16550 with lcr := 0x03, fcr := 0x41 }.rxq [0x55])))
    (fun t => t.chan.rx.count = 1 && t.chan.lsr = 0x61 && t.chan.toArmed && t.chan.toCnt = 40 &&
      t.chan.pending = 0) = true := by decide
/-- R1300, V70.1. -/
theorem test_reset : gives (exec .reset (on { chanOf .V16950 with ier := 0x0F, lsr := 0x7F, pending := 0x07 }))
    (fun t => t.chan.lsr = 0x60 && t.chan.ier = 0x00 && t.chan.pending = 0 && t.chan.iirValue = 0x01 &&
      t.chan.cpr = 0x20 && Memory.read t.chan.icr 0x08 = 0x16) = true := by decide
/-- R1103, P5 step 4: child 3's LCR, not child 0's. -/
theorem test_crd : gives (exec (.crd 0x1B) { State.reset with
      comp := State.reset.comp.replace 0x1B { chanOf .V8250 with lcr := 0x03 } })
    (fun t => t.result = some 0x03) = true := by decide
/-- R1103, P5 step 5: child 3's IER; no other child changes. -/
theorem test_cwr : gives (exec (.cwr 0x19 0x02) State.reset)
    (fun t => (t.comp.selected 0x19).pending = 0x02 && (t.comp.selected 0x11).pending = 0 &&
      lineLevel (.child 3) t.events = some true && lineLevel (.child 2) t.events = some false) = true := by decide
/-- R1104, V47.6: child 0's callbacks, then child 1's. -/
theorem test_ctick : gives (exec .ctick { State.reset with
      comp := .dual (Channel.initial (Config.child Config.defaultShared 0 Config.defaultParams))
        (Channel.initial (Config.child Config.defaultShared 1 Config.defaultParams)), events := [] })
    (fun t => t.events = [.receiveByte (.child 0) 0 none, .receiveByte (.child 1) 1 none]) = true := by decide
/-- R1105, V47.5. -/
theorem test_creset : gives (exec .creset { State.reset with events := [] })
    (fun t => t.events = [.interruptLine (.child 0) false, .interruptLine (.child 1) false,
      .interruptLine (.child 2) false, .interruptLine (.child 3) false]) = true := by decide

/-! ### Shared operations -/

/-- R1000's examples. -/
theorem test_frameBits : frameBits 0x00 = 7 ∧ frameBits 0x03 = 10 ∧ frameBits 0x04 = 8 ∧ frameBits 0x0B = 11 ∧
    frameBits 0x1F = 12 := by decide
/-- R1004's examples. -/
theorem test_baudConst :
    ({ chanOf .V16950 with dll := 3, mcr := 0x80, icr := [(1, 0x10)] } : Channel).baudConst = 6 ∧
    ({ chanOf .V16950 with dll := 3, mcr := 0x80, icr := [(1, 0x0C)] } : Channel).baudConst = 4 ∧
    ({ chanOf .V16950 with dll := 0 } : Channel).baudConst = 1 := by decide
/-- The largest values (V46.10). -/
theorem test_largest : ({ chanOf .V16950 with
    dll := 0xFF, dlm := 0xFF, lcr := 0x0F, mcr := 0x80, icr := [(1, 0xFF)] } : Channel).timeoutTicks =
    100268544 := by decide
/-- R804, R805's examples. -/
theorem test_identification : identification 0x0F 0x0F = 0b0110 ∧ identification 0x11 0x01 = 0b1100 ∧
    interruptLevel 0x11 0x10 = false := by decide
/-- V47.1 to V47.3. -/
theorem test_childIndex : Composite.childIndex State.reset.comp 0x1B = 3 ∧
    Composite.childIndex (.dual (chanOf .V8250) (chanOf .V8250)) 0x1B = 1 ∧
    Composite.childIndex (.dual (chanOf .V8250) (chanOf .V8250)) 0x07 = 0 ∧ localOf 0x0F = 7 := by decide
/-- The reset state is the state that creation gives, and its storage is in canonical form. -/
theorem test_reset_created : State.reset = State.create Config.defaultShared Config.defaultParams
    (.quad Config.defaultShared Config.defaultParams Config.defaultParams Config.defaultParams
      Config.defaultParams) := by decide
theorem test_reset_memory : (State.reset.channels.all fun c => Memory.wf c.icr && Memory.wf c.rx.buf) = true := by
  decide

end Sys2Proof.Tests
end

