-- ==== Sys2Proof/Tests/Witnesses.lean ====
section
/-! SUPPORT. For every obligation with hypotheses, concrete states and operands that meet them: each clause
of an obligation by itself, at the ends of its range where it has one. -/

namespace Sys2Proof.Tests

open Sys2Proof Sys2Proof.Machine

/-- A `V16950` channel with the bank open. -/
def bankChan : Channel := { chanOf .V16950 with bank650 := true }
/-- A `V16950` channel with ACR = `b`. -/
def acrChan (b : Byte) : Channel := { chanOf .V16950 with icr := [(0x00, b)] }
/-- A `V16550` channel with the FIFO discipline on and `n` bytes 0x00 in each FIFO. -/
def fifoChan (n : Nat) : Channel := { chanOf .V16550 with fcr := 0x01, rx := ⟨[], 0, n % 16, n⟩, tx := ⟨[], 0, n % 16, n⟩ }
/-- The reset machine with these operations waiting. -/
def waiting (p : List HostWord) : State := { State.reset with program := p }

/-! ### Operation words and the step -/

theorem witness_DecodeOfEncodeIsTheOperation :
    Instr.condition plain .rdRbr = true ∧ Instr.condition { plain with fifoOn := true } .rdRbrFifo = true ∧
    Instr.condition dlab .rdDll = true ∧ Instr.condition plain (.wrThr 0x00) = true ∧
    Instr.condition dlab (.wrDll 0xFF) = true ∧ Instr.condition plain .rdIer = true ∧
    Instr.condition { plain with asr := true } .rdAsr = true ∧ Instr.condition dlab .rdDlm = true ∧
    Instr.condition plain (.wrIer 0x0F) = true ∧ Instr.condition dlab (.wrDlm 0x00) = true ∧
    Instr.condition plain .rdIir = true ∧ Instr.condition bank .rdEfr = true ∧
    Instr.condition plain (.wrFcr 0x01) = true ∧ Instr.condition bank (.wrEfr 0x10) = true ∧
    Instr.condition plain .rdLcr = true ∧ Instr.condition plain (.wrLcr 0xBE) = true ∧
    Instr.condition (.afterReset .V8250) (.wrLcr 0xBF) = true ∧ Instr.condition plain .wrLcrBank = true ∧
    Instr.condition plain .rdMcr = true ∧ Instr.condition bank .rdXon1 = true ∧
    Instr.condition plain (.wrMcr 0x12) = true ∧ Instr.condition bank (.wrXon1 0x11) = true ∧
    Instr.condition plain .rdLsr = true ∧ Instr.condition bank .rdIcr = true ∧
    Instr.condition plain (.wrLsr 0x03) = true ∧ Instr.condition bank (.wrIcr 0x10) = true ∧
    Instr.condition plain .rdMsr = true ∧ Instr.condition plain (.wrMsr 0x01) = true ∧
    Instr.condition plain .rdScr = true ∧ Instr.condition plain (.wrScr 0x5A) = true ∧
    Instr.condition plain .tick = true ∧ Instr.condition plain .reset = true ∧
    Instr.condition plain (.crd 0x1F) = true ∧ Instr.condition plain (.cwr 0x00 0xFF) = true ∧
    Instr.condition plain .ctick = true ∧ Instr.condition plain .creset = true := by decide

theorem witness_EveryBusWordDecodesToExactlyOneOperation :
    (0x0000#13).getLsbD 12 = false ∧ (0x0FFF#13).getLsbD 12 = false ∧
    (Instr.condition plain .rdRbr = true ∧ Instr.MatchesWord .rdRbr 0x0000#13) ∧
    (on (chanOf .V8250)).chan.depth = 0 ∧ (DecodeView.afterReset .V16750).variant.hasBank650 = false :=
  ⟨by decide, by decide, ⟨by decide, 0x0000#13, by decide, by decide, by decide⟩, by decide, by decide⟩

theorem witness_UndefinedCodesAreTheOnlyWordsRefused :
    ((waiting [.channel 0x1002#13]).program = [.channel 0x1002#13] ∧ (0x1002#13).getLsbD 12 = true ∧
      0x002 ≤ ((0x1002#13).extractLsb' 0 12).toNat) ∧
    ((waiting [.channel 0x1FFF#13]).program = [.channel 0x1FFF#13] ∧ (0x1FFF#13).getLsbD 12 = true ∧
      0x002 ≤ ((0x1FFF#13).extractLsb' 0 12).toNat) ∧
    ((waiting [.composite 0x4002#15]).program = [.composite 0x4002#15] ∧ (0x4002#15).getLsbD 14 = true ∧
      0x0002 ≤ ((0x4002#15).extractLsb' 0 14).toNat) ∧
    ((waiting [.composite 0x7FFF#15]).program = [.composite 0x7FFF#15] ∧ (0x7FFF#15).getLsbD 14 = true ∧
      0x0002 ≤ ((0x7FFF#15).extractLsb' 0 14).toNat) ∧
    decode plain (.channel 0x1002#13) = .error (.undefinedHostCode 0x1002#13) ∧
    decode plain (.composite 0x7FFF#15) = .error (.undefinedCompositeCode 0x7FFF#15) := by decide

theorem witness_StepRunsTheDecodedOperation :
    ((waiting [.channel 0xB03#13]).program = [.channel 0xB03#13] ∧
      decode (waiting [.channel 0xB03#13]).chan.view (.channel 0xB03#13) = .ok (.wrLcr 0x03)) ∧
    ((waiting [.composite 0x4000#15, .channel 0x200#13]).program = [.composite 0x4000#15, .channel 0x200#13] ∧
      decode (waiting [.composite 0x4000#15]).chan.view (.composite 0x4000#15) = .ok .ctick) := by decide

theorem witness_EveryStepAdvancesThePositionByOne : ∃ t, step busyState = .next t := ⟨_, rfl⟩

theorem witness_NoOperationFails :
    (waiting [.channel 0xB03#13]).program = [.channel 0xB03#13] ∧
    (waiting [.channel 0x1002#13]).program = [.channel 0x1002#13] := by decide

theorem witness_NoDecodeSelectsAnAbsentRegister :
    let v := { bank with fifoOn := true }
    (v.bank = true → v.variant.hasBank650 = true) ∧ (v.fifoOn = true → v.variant.fifoCap = true) ∧
    decode v (.channel 0x200#13) = .ok .rdEfr ∧ decode v (.channel 0x000#13) = .ok .rdRbrFifo := by decide

/-! ### Data registers -/

theorem witness_PlainReadsReturnTheirRegister :
    (on { chanOf .V8250 with lcr := 0x80 }).chan.lcr.getLsbD 7 = true ∧
    (on { chanOf .V16650 with bank650 := true }).chan.bank650 = true ∧
    ((on bankChan).chan.cfg.variant.x950 = true ∧ (on bankChan).chan.bank650 = true) := by decide

/-- A `V8250` channel with every stored bit of IER and MCR set. -/
def legacyChan : Channel := { chanOf .V8250 with ier := 0x0F, mcr := 0x1F }

theorem witness_ReadsOfIerAndMcr :
    ((on (acrChan 0x7F)).chan.lcr.getLsbD 7 = false ∧
      ¬((on (acrChan 0x7F)).chan.cfg.variant.x950 = true ∧
        (Memory.read (on (acrChan 0x7F)).chan.icr 0x00).getLsbD 7 = true)) ∧
    (on legacyChan).chan.bank650 = false ∧
    (on legacyChan).chan.FixedOk ∧ (on legacyChan).chan.cfg.variant.ext = false :=
  ⟨by decide, by decide, ⟨by decide, by decide, by decide, by decide, by decide, by decide, by decide⟩, by decide⟩

theorem witness_AsrReadReturnsAFreeValue :
    (on (acrChan 0x80)).chan.lcr.getLsbD 7 = false ∧ (on (acrChan 0x80)).chan.cfg.variant.x950 = true ∧
    (Memory.read (on (acrChan 0x80)).chan.icr 0x00).getLsbD 7 = true := by decide

theorem witness_PlainWritesStoreTheirRegister :
    (on bankChan).chan.bank650 = true ∧
    ¬((on bankChan).chan.cfg.variant.hasBank650 = true ∧ (0xBE : Byte) = 0xBF) ∧
    ¬((on (chanOf .V16750)).chan.cfg.variant.hasBank650 = true ∧ (0xBF : Byte) = 0xBF) ∧
    (on (chanOf .V16650)).chan.cfg.variant.hasBank650 = true := by decide

theorem witness_UnbufferedRbrReadClearsDataReady :
    (on (chanOf .V16550)).chan.lcr.getLsbD 7 = false ∧ (on (chanOf .V16550)).chan.fifoOn = false := by decide

theorem fifoChan_ok (n : Nat) (hn : n ≤ 16) : (fifoChan n).rx.Ok 16 ∧ (fifoChan n).tx.Ok 16 :=
  ⟨⟨rfl, by simp [fifoChan], hn, by simp [fifoChan]⟩, ⟨rfl, by simp [fifoChan], hn, by simp [fifoChan]⟩⟩

/-- An empty, a one-byte and a full FIFO. -/
theorem witness_FifoReadPopsTheOldestByte :
    ((on (fifoChan 1)).chan.lcr.getLsbD 7 = false ∧ (on (fifoChan 1)).chan.fifoOn = true) ∧
    ((on (fifoChan 0)).chan.rx.Ok (on (fifoChan 0)).chan.depth ∧ (on (fifoChan 0)).chan.rxContents = []) ∧
    ((on (fifoChan 1)).chan.rx.Ok (on (fifoChan 1)).chan.depth ∧ (on (fifoChan 1)).chan.rxContents = [0x00]) ∧
    ((on (fifoChan 16)).chan.rx.Ok (on (fifoChan 16)).chan.depth ∧
      (on (fifoChan 16)).chan.rxContents = 0x00 :: List.replicate 15 0x00) :=
  ⟨by decide, ⟨(fifoChan_ok 0 (by decide)).1, by decide⟩, ⟨(fifoChan_ok 1 (by decide)).1, by decide⟩,
    ⟨(fifoChan_ok 16 (by decide)).1, by decide⟩⟩

theorem witness_ThrWriteUnbuffered :
    (on (chanOf .V16550)).chan.lcr.getLsbD 7 = false ∧
    ((on (chanOf .V16550)).chan.fifoOn = false ∧ (on (chanOf .V16550)).chan.tsrBusy = false) ∧
    ((on { chanOf .V8250 with tsrBusy := true, txBits := 4 }).chan.fifoOn = false ∧
      (on { chanOf .V8250 with tsrBusy := true, txBits := 4 }).chan.tsrBusy = true) := by decide

/-- Idle and busy, with an empty FIFO, one slot left, and a full FIFO. -/
theorem witness_ThrWriteFifo :
    ((on (fifoChan 0)).chan.fifoOn = true ∧ (on (fifoChan 0)).chan.tx.Ok (on (fifoChan 0)).chan.depth ∧
      (on (fifoChan 0)).chan.tsrBusy = false) ∧
    ((on (fifoChan 15)).chan.fifoOn = true ∧ (on (fifoChan 15)).chan.tx.Ok (on (fifoChan 15)).chan.depth ∧
      (on (fifoChan 15)).chan.txContents.length < (on (fifoChan 15)).chan.depth) ∧
    ((on { fifoChan 16 with tsrBusy := true }).chan.fifoOn = true ∧
      (on { fifoChan 16 with tsrBusy := true }).chan.tx.Ok (on (fifoChan 16)).chan.depth ∧
      (on { fifoChan 16 with tsrBusy := true }).chan.tsrBusy = true) :=
  ⟨⟨by decide, (fifoChan_ok 0 (by decide)).2, by decide⟩, ⟨by decide, (fifoChan_ok 15 (by decide)).2, by decide⟩,
    ⟨by decide, (fifoChan_ok 16 (by decide)).2, by decide⟩⟩

theorem witness_DivisorWritesReprogram :
    (on { chanOf .V8250 with lcr := 0x80 }).chan.lcr.getLsbD 7 = true ∧
    (∃ (i : Instr) (c : Channel), (i = .wrDll 0x02 ∧ c = { (on (chanOf .V8250)).chan with dll := 0x02 }) ∧
      c.tsrBusy = false) ∧
    (∃ (i : Instr) (c : Channel), (i = .wrDlm 0x02 ∧ c = { busyState.chan with dlm := 0x02 }) ∧
      c.tsrBusy = true ∧ c.tx.Ok c.depth) :=
  ⟨by decide, ⟨_, _, ⟨rfl, rfl⟩, by decide⟩, ⟨_, _, ⟨rfl, rfl⟩, by decide, by decide, by decide, by decide, by decide⟩⟩

/-! ### Control and status registers -/

theorem witness_IerWriteStoresAndKicksThre : (on (chanOf .V8250)).chan.lcr.getLsbD 7 = false := by decide

theorem witness_IirReadClearsOnlyAShownThre :
    (on (chanOf .V8250)).chan.bank650 = false ∧ (on (chanOf .V8250)).chan.iirId ≠ 0b0010 ∧
    (on { chanOf .V8250 with ier := 0x02, pending := 0x02, iirId := 0b0010 }).chan.iirId = 0b0010 := by decide

theorem witness_FcrWriteStoresAndFlushes :
    (on (chanOf .V16550)).chan.bank650 = false ∧ (on (chanOf .V8250)).chan.depth = 0 ∧
    (on (chanOf .V16550)).chan.depth ≠ 0 := by decide

/-- A write that changes a line (loop and RTS), and one that changes none. -/
theorem witness_McrWriteRecomputesModemStatus :
    (on (chanOf .V8250)).chan.bank650 = false ∧
    ((on (chanOf .V8250)).chan.msr.getLsbD 4 != (0x12 : Byte).getLsbD 1) = true ∧
    ((on (chanOf .V8250)).chan.msr.getLsbD 4 != (on (chanOf .V8250)).chan.latches.cts) = false := by decide

/-- SCR at 0x07, 0x08, 0x0B, 0x0C and 0xFF. -/
theorem witness_IcrWriteStoresOneEntry :
    ((on bankChan).chan.cfg.variant.x950 = true ∧ (on bankChan).chan.bank650 = true) ∧
    (0x08 ≤ (on { bankChan with scr := 0x08 }).chan.scr.toNat ∧
      (on { bankChan with scr := 0x08 }).chan.scr.toNat ≤ 0x0B) ∧
    (0x08 ≤ (on { bankChan with scr := 0x0B }).chan.scr.toNat ∧
      (on { bankChan with scr := 0x0B }).chan.scr.toNat ≤ 0x0B) ∧
    ((on { bankChan with scr := 0x0C }).chan.scr = 0x0C ∧ (0x00 : Byte) = 0x00) ∧
    (((on { bankChan with scr := 0x07 }).chan.scr.toNat < 0x08 ∨
        0x0B < (on { bankChan with scr := 0x07 }).chan.scr.toNat) ∧
      ((on { bankChan with scr := 0x07 }).chan.scr ≠ 0x0C ∨ (0x00 : Byte) ≠ 0x00) ∧
      Memory.wf (on { bankChan with scr := 0x07 }).chan.icr = true) ∧
    (((on { bankChan with scr := 0x0C }).chan.scr.toNat < 0x08 ∨
        0x0B < (on { bankChan with scr := 0x0C }).chan.scr.toNat) ∧
      ((on { bankChan with scr := 0x0C }).chan.scr ≠ 0x0C ∨ (0x01 : Byte) ≠ 0x00)) ∧
    (((on { bankChan with scr := 0xFF }).chan.scr.toNat < 0x08 ∨
        0x0B < (on { bankChan with scr := 0xFF }).chan.scr.toNat)) := by decide

theorem witness_LsrReadClearsTheErrorBits :
    ¬((on bankChan).chan.cfg.variant.x950 = true ∧ (on (chanOf .V16950)).chan.bank650 = true) ∧
    ¬((on { chanOf .V16650 with bank650 := true }).chan.cfg.variant.x950 = true ∧
      (on { chanOf .V16650 with bank650 := true }).chan.bank650 = true) := by decide

theorem witness_LsrWriteForcesTheLowFiveBits :
    ¬((on (chanOf .V16950)).chan.cfg.variant.x950 = true ∧ (on (chanOf .V16950)).chan.bank650 = true) ∧
    (0xE0 : Byte) &&& 0x1F = 0x00 ∧ (0x01 : Byte) &&& 0x1F ≠ 0x00 ∧ (0x10 : Byte) &&& 0x1F ≠ 0x00 := by decide

theorem witness_MsrReadAndForcedWrite :
    (0xF0 : Byte) &&& 0x0F = 0x00 ∧ (0x08 : Byte) &&& 0x0F ≠ 0x00 := by decide

/-! ### The arbiter -/

/-- A call on a channel with these pending sources, all enabled. -/
def callWith (p : BitVec 5) : Call := ⟨{ chanOf .V8250 with pending := p, ier := 0x0F }, [], none⟩

theorem witness_RecomputeIdentifiesByPriority :
    ((recompute (callWith 0x00)).ch.intLine = false) ∧
    ((callWith 0x0F).ch.pending.getLsbD 2 = true ∧ (callWith 0x0F).ch.ier.getLsbD 2 = true) ∧
    (¬((callWith 0x1B).ch.pending.getLsbD 2 = true ∧ (callWith 0x1B).ch.ier.getLsbD 2 = true) ∧
      (callWith 0x1B).ch.pending.getLsbD 0 = true ∧ (callWith 0x1B).ch.ier.getLsbD 0 = true) ∧
    (¬((callWith 0x0A).ch.pending.getLsbD 2 = true ∧ (callWith 0x0A).ch.ier.getLsbD 2 = true) ∧
      ¬((callWith 0x0A).ch.pending.getLsbD 0 = true ∧ (callWith 0x0A).ch.ier.getLsbD 0 = true) ∧
      (callWith 0x0A).ch.pending.getLsbD 1 = true ∧ (callWith 0x0A).ch.ier.getLsbD 1 = true) ∧
    (¬((callWith 0x08).ch.pending.getLsbD 2 = true ∧ (callWith 0x08).ch.ier.getLsbD 2 = true) ∧
      ¬((callWith 0x08).ch.pending.getLsbD 0 = true ∧ (callWith 0x08).ch.ier.getLsbD 0 = true) ∧
      ¬((callWith 0x08).ch.pending.getLsbD 1 = true ∧ (callWith 0x08).ch.ier.getLsbD 1 = true) ∧
      (callWith 0x08).ch.pending.getLsbD 3 = true ∧ (callWith 0x08).ch.ier.getLsbD 3 = true) := by decide

theorem witness_OnlyTheListedOperationsClearAPendingBit :
    ∃ t, exec .rdLsr (on (callWith 0x04).ch) = .next t ∧ (on (callWith 0x04).ch).chan.pending.getLsbD 2 = true ∧
      t.chan.pending.getLsbD 2 = false := ⟨_, rfl, by decide, by decide⟩

theorem witness_OnlyTheirOwnersWriteTheRegisters :
    (∃ t, exec (.wrScr 0x5A) (on bankChan) = .next t ∧ Instr.wrScr 0x5A ≠ .reset ∧
      ¬(Instr.wrScr 0x5A = .wrIcr 0x00 ∧ (on bankChan).chan.scr = 0x0C) ∧ t.chan.scr ≠ (on bankChan).chan.scr) ∧
    (∃ t, exec (.wrLcr 0x03) (on bankChan) = .next t ∧ Instr.wrLcr 0x03 ≠ .reset ∧
      ¬(Instr.wrLcr 0x03 = .wrIcr 0x00 ∧ (on bankChan).chan.scr = 0x0C) ∧
      (on bankChan).chan.bank650 = true ∧ t.chan.bank650 = false) ∧
    (∃ t, exec .wrLcrBank (on (chanOf .V16950)) = .next t ∧ Instr.wrLcrBank ≠ .reset ∧
      (on (chanOf .V16950)).chan.bank650 = false ∧ t.chan.bank650 = true) :=
  ⟨⟨_, rfl, by decide, by decide, by decide⟩, ⟨_, rfl, by decide, by decide, by decide, by decide⟩,
    ⟨_, rfl, by decide, by decide, by decide⟩⟩

/-! ### The tick -/

theorem witness_TickCountsAndKeepsTheRegisters :
    (1 ≤ busyState.chan.baudCnt ∧ busyState.chan.baudCnt = 1) ∧
    (1 ≤ (on { busyChan with baudCnt := 2 }).chan.baudCnt ∧ 1 < (on { busyChan with baudCnt := 2 }).chan.baudCnt) ∧
    (let c := { busyChan with baudCnt := 2, toCnt := 2 };
      1 < c.baudCnt ∧ c.toArmed = true ∧ c.fifoOn = true ∧ c.NoExpiry) := by
  simp only [Channel.NoExpiry]
  decide

/-- The receiver disabled; `NONE`; a byte with DR clear and set; the FIFO with one slot left, and full, with the
timeout armed and not about to fire; and a second byte below the trigger level with the timeout armed. -/
theorem witness_TickReceivesAtMostOneByte :
    ((on (acrChan 0x01)).chan.baudCnt = 1 ∧ (on (acrChan 0x01)).chan.rx.Ok (on (acrChan 0x01)).chan.depth ∧
      (on (acrChan 0x01)).chan.rxDisabled = true) ∧
    ((on (chanOf .V8250)).chan.baudCnt = 1 ∧ (on (chanOf .V8250)).chan.rx.Ok (on (chanOf .V8250)).chan.depth ∧
      (on (chanOf .V8250)).chan.rxDisabled = false ∧ (on (chanOf .V8250)).chan.nextAnswer = none) ∧
    (∀ l ∈ [(0x60 : Byte), 0x61], let c := { (chanOf .V8250).rxq [0x11] with lsr := l }
      c.baudCnt = 1 ∧ c.rx.Ok c.depth ∧ c.rxDisabled = false ∧ c.nextAnswer = some 0x11 ∧ c.fifoOn = false) ∧
    (∀ n ∈ [15, 16], let c := { (fifoChan n).rxq [0x11] with toArmed := true, toCnt := 2 }
      c.baudCnt = 1 ∧ c.rx.Ok c.depth ∧ c.rxDisabled = false ∧ c.nextAnswer = some 0x11 ∧ c.fifoOn = true ∧
      c.rxContents.length = n ∧ c.depth = 16 ∧ c.NoExpiry) ∧
    (let c := { (fifoChan 1).rxq [0x11] with fcr := 0x41, toArmed := true, toCnt := 2 };
      c.baudCnt = 1 ∧ c.rx.Ok c.depth ∧ c.rxDisabled = false ∧ c.nextAnswer = some 0x11 ∧ c.fifoOn = true ∧
      c.rxContents.length + 1 < c.trigLevel ∧ c.NoExpiry) := by
  refine ⟨⟨by decide, .empty _, by decide⟩, ⟨by decide, .empty _, by decide, by decide⟩, ?_, ?_,
    by decide, (fifoChan_ok 1 (by decide)).1, by decide, by decide, by decide, by decide, fun _ _ => by decide⟩
  · intro l hl
    simp only [List.mem_cons, List.not_mem_nil, or_false] at hl
    obtain rfl | rfl := hl <;> exact ⟨by decide, .empty _, by decide, by decide, by decide⟩
  · intro n hn
    simp only [List.mem_cons, List.not_mem_nil, or_false] at hn
    obtain rfl | rfl := hn
    · exact ⟨by decide, (fifoChan_ok 15 (by decide)).1, by decide, by decide, by decide, by decide, by decide,
        fun _ _ => by decide⟩
    · exact ⟨by decide, (fifoChan_ok 16 (by decide)).1, by decide, by decide, by decide, by decide, by decide,
        fun _ _ => by decide⟩

/-- The transmitter disabled; idle; with two bits left, and with one. -/
theorem witness_TickTransmitsBitByBit :
    ((on (acrChan 0x02)).chan.baudCnt = 1 ∧ (on (acrChan 0x02)).chan.tx.Ok (on (acrChan 0x02)).chan.depth ∧
      (on (acrChan 0x02)).chan.txDisabled = true) ∧
    ((on (chanOf .V8250)).chan.baudCnt = 1 ∧ (on (chanOf .V8250)).chan.tx.Ok (on (chanOf .V8250)).chan.depth ∧
      (on (chanOf .V8250)).chan.tsrBusy = false) ∧
    (∀ n ∈ [1, 2], let c := { busyChan with txBits := n }
      c.baudCnt = 1 ∧ c.tx.Ok c.depth ∧ c.txDisabled = false ∧ c.tsrBusy = true ∧ c.txBits = n) := by
  refine ⟨⟨by decide, .empty _, by decide⟩, ⟨by decide, .empty _, by decide⟩, ?_⟩
  intro n hn
  simp only [List.mem_cons, List.not_mem_nil, or_false] at hn
  obtain rfl | rfl := hn <;> exact ⟨by decide, ⟨by decide, by decide, by decide, by decide⟩, by decide, by decide, by decide⟩

/-- One tick left, and two; a disarmed timeout; a tick without a service step, the receiver disabled, `NONE`, a byte
in the unbuffered discipline, and a byte that a full FIFO discards. -/
theorem witness_TickRunsTheCharacterTimeout :
    (busyChan.toArmed = true ∧ busyChan.fifoOn = true ∧ ({ busyChan with toCnt := 1 } : Channel).toCnt = 1) ∧
    (∀ n ∈ [2, 40], let c := { busyChan with toCnt := n }
      c.toArmed = true ∧ c.fifoOn = true ∧ 1 < c.toCnt ∧ c.NoExpiry) ∧
    ((chanOf .V8250).toArmed = false ∧ (chanOf .V8250).NoExpiry) ∧
    1 < ({ busyChan with baudCnt := 2 } : Channel).baudCnt ∧ (acrChan 0x01).rxDisabled = true ∧
    (chanOf .V8250).nextAnswer = none ∧
    (((chanOf .V8250).rxq [0x11]).nextAnswer = some 0x11 ∧ ((chanOf .V8250).rxq [0x11]).fifoOn = false) ∧
    (((fifoChan 16).rxq [0x11]).nextAnswer = some 0x11 ∧
      ((fifoChan 16).rxq [0x11]).rx.count = ((fifoChan 16).rxq [0x11]).depth) := by
  simp only [Channel.NoExpiry]
  decide

/-! ### Reset and the composite -/

theorem busyChan_fixed : busyChan.FixedOk :=
  ⟨by decide, by decide, by decide, by decide, by decide, by decide, by decide⟩

theorem witness_ResetRestoresEveryElement : busyState.chan.FixedOk := busyChan_fixed

theorem witness_CompositeAccessActsOnTheSelectedChild :
    (Instr.crd 0x1B = .crd 0x1B ∧ decode (State.reset.comp.selected 0x1B).view
      (.channel (0#1 ++ 0#1 ++ localOf 0x1B ++ 0x00#8)) = .ok .rdLcr) ∧
    (Instr.cwr 0x00 0x41 = .cwr 0x00 0x41 ∧ decode (busyState.comp.selected 0x00).view
      (.channel (0#1 ++ 1#1 ++ localOf 0x00 ++ 0x41#8)) = .ok (.wrThr 0x41)) := by decide

theorem witness_CompositeTickAndResetRunInChildOrder :
    (∃ c0 c1, busyState.comp = .dual c0 c1) ∧ (∃ c0 c1 c2 c3, State.reset.comp = .quad c0 c1 c2 c3) ∧
    ((Instr.ctick = .ctick ∧ Instr.tick = .tick) ∧ (Instr.creset = .creset ∧ Instr.reset = .reset)) :=
  ⟨⟨_, _, rfl⟩, ⟨_, _, _, _, rfl⟩, by decide⟩

theorem witness_DevicesShareNoState :
    (∃ t, exec .tick busyState = .next t ∧ Instr.isComposite .tick = false) ∧
    (∃ t, exec .ctick busyState = .next t ∧ Instr.isComposite .ctick = true) := ⟨⟨_, rfl, rfl⟩, ⟨_, rfl, rfl⟩⟩

/-- Two machines that differ in the sibling, in the stand-alone channel and in the callbacks made. -/
theorem witness_NoOtherChannelInfluencesAChild :
    let s' := { busyState with
      chan := chanOf .V8250, comp := busyState.comp.replace 0x00 (chanOf .V8250), events := [] }
    busyState.comp.selected 0x08 = s'.comp.selected 0x08 ∧ busyState ≠ s' := by decide

/-! ### Invariants and runs -/

theorem witness_NoStepChangesAConfiguration : ∃ t, step busyState = .next t := ⟨_, rfl⟩

/-- Every channel of the busy machine meets the invariant. -/
theorem busy_channels (c : Channel) (h : c ∈ busyState.channels) : c.Inv := by
  simp only [State.channels, busyState, Composite.children, List.mem_cons, List.not_mem_nil, or_false] at h
  obtain rfl | rfl | rfl := h <;>
    exact ⟨⟨⟨by decide, by decide, by decide, by decide⟩, ⟨by decide, by decide, by decide, by decide⟩⟩,
      ⟨by decide, by decide⟩, ⟨by decide, by decide⟩,
      ⟨by decide, by decide, by decide, by decide, by decide, by decide⟩,
      ⟨by decide, by decide, by decide, by decide, by decide, by decide⟩,
      ⟨by decide, by decide, by decide, by decide, by decide, by decide, by decide⟩,
      ⟨by decide, by decide, by decide, by decide, by decide, by decide⟩⟩

theorem busy_identities : busyState.IdentitiesOk where
  standalone := by decide
  children := by
    intro i c h
    match i with
    | 0 => obtain rfl := Option.some.inj h; decide
    | 1 => obtain rfl := Option.some.inj h; decide
    | 2 => cases h
    | 3 => cases h

theorem busy_lines : busyState.LinesDelivered := by
  intro c h
  simp only [State.channels, busyState, Composite.children, List.mem_cons, List.not_mem_nil, or_false] at h
  obtain rfl | rfl | rfl := h <;> decide

theorem witness_StepsKeepTheIdentification :
    busyState.Everywhere Channel.IdentificationOk ∧ ∃ t, step busyState = .next t :=
  ⟨fun c h => (busy_channels c h).identification, _, rfl⟩
theorem witness_StepsKeepTheMarkerBesideRda :
    busyState.Everywhere Channel.MarkerOk ∧ ∃ t, step busyState = .next t :=
  ⟨fun c h => (busy_channels c h).marker, _, rfl⟩
theorem witness_StepsKeepTheTransmitter :
    busyState.Everywhere Channel.TransmitterOk ∧ ∃ t, step busyState = .next t :=
  ⟨fun c h => (busy_channels c h).transmitter, _, rfl⟩
theorem witness_StepsKeepTheFifos :
    busyState.Everywhere Channel.FifosOk ∧ ∃ t, step busyState = .next t :=
  ⟨fun c h => (busy_channels c h).fifos, _, rfl⟩
theorem witness_StepsKeepTheTimers :
    busyState.Everywhere Channel.TimersOk ∧ ∃ t, step busyState = .next t :=
  ⟨fun c h => (busy_channels c h).timers, _, rfl⟩
theorem witness_StepsKeepTheFixedBits :
    busyState.Everywhere Channel.FixedOk ∧ ∃ t, step busyState = .next t :=
  ⟨fun c h => (busy_channels c h).fixed, _, rfl⟩
theorem witness_StepsKeepTheParameters :
    busyState.Everywhere Channel.ParametersOk ∧ ∃ t, step busyState = .next t :=
  ⟨fun c h => (busy_channels c h).parameters, _, rfl⟩
theorem witness_StepsDeliverEveryLineLevel :
    busyState.IdentitiesOk ∧ busyState.LinesDelivered ∧ ∃ t, step busyState = .next t :=
  ⟨busy_identities, busy_lines, _, rfl⟩
theorem witness_EveryStepKeepsTheInvariant : busyState.Inv ∧ ∃ t, step busyState = .next t :=
  ⟨⟨busy_channels, busy_identities, busy_lines⟩, _, rfl⟩

theorem witness_DivisorRoundTrip :
    ((on { chanOf .V16950 with mcr := 0x7F }).chan.cfg.variant.x950 &&
      (on { chanOf .V16950 with mcr := 0x7F }).chan.mcr.getLsbD 7) = false ∧
    ((on { chanOf .V16750 with mcr := 0xFF }).chan.cfg.variant.x950 &&
      (on { chanOf .V16750 with mcr := 0xFF }).chan.mcr.getLsbD 7) = false := by decide

/-- The prescaler on and off, and each disable bit. -/
theorem witness_DerivedQuantitiesFollowTheirRules :
    ({ chanOf .V16950 with mcr := 0x80 }.cfg.variant = .V16950 ∧
      ({ chanOf .V16950 with mcr := 0x80 } : Channel).mcr.getLsbD 7 = true) ∧
    ¬((chanOf .V16950).cfg.variant = .V16950 ∧ (chanOf .V16950).mcr.getLsbD 7 = true) ∧
    ¬({ chanOf .V16750 with mcr := 0x80 }.cfg.variant = .V16950 ∧
      ({ chanOf .V16750 with mcr := 0x80 } : Channel).mcr.getLsbD 7 = true) := by decide

theorem busyState_inv : busyState.chan.Inv := busy_channels _ (List.mem_cons_self ..)

theorem witness_AByteGoesOutAfterItsLastBit :
    busyState.chan.Inv ∧ busyState.chan.tsrBusy = true ∧ busyState.chan.txDisabled = false ∧
    0 < busyState.chan.baudCnt + (busyState.chan.txBits - 1) * busyState.chan.baudConst :=
  ⟨busyState_inv, by decide, by decide, by decide⟩

theorem witness_TheTimeoutFiresWhenItsCountdownEnds :
    busyState.chan.Inv ∧ busyState.chan.toArmed = true ∧
    (∀ a ∈ busyState.chan.rxIn.take busyState.chan.toCnt, a = none) ∧ 0 < busyState.chan.toCnt :=
  ⟨busyState_inv, by decide, fun _ h => absurd h List.not_mem_nil, by decide⟩

/-- An empty `V16550` FIFO with seventeen bytes on their way. -/
def overrunChan : Channel := (fifoChan 0).rxq (List.replicate 17 0x41)

theorem overrunChan_inv : overrunChan.Inv :=
  ⟨⟨⟨by decide, by decide, by decide, by decide⟩, ⟨by decide, by decide, by decide, by decide⟩⟩,
    ⟨by decide, by decide⟩, ⟨by decide, by decide⟩,
    ⟨by decide, by decide, by decide, by decide, by decide, by decide⟩,
    ⟨by decide, by decide, by decide, by decide, by decide, by decide⟩,
    ⟨by decide, by decide, by decide, by decide, by decide, by decide, by decide⟩,
    ⟨by decide, by decide, by decide, by decide, by decide, by decide⟩⟩

theorem witness_FifoOverrunLaw :
    (on overrunChan).chan.Inv ∧ (on overrunChan).chan.fifoOn = true ∧ (on overrunChan).chan.rxDisabled = false ∧
    (List.replicate 17 (0x41 : Byte)).length = (on overrunChan).chan.depth + 1 ∧
    (on overrunChan).chan.rxIn = (List.replicate 17 (0x41 : Byte)).map some ++ [] :=
  ⟨overrunChan_inv, by decide, by decide, by decide, rfl⟩

end Sys2Proof.Tests
end

section
/-! What a step can do, said once: the host's next word is decoded in the addressed channel's state, and the
operation runs on the stand-alone channel, on one child, or on every child in turn (R103, R410, R1103 to R1105).
For the channels it is a sequence of single-channel operations (`Acts`); every invariant of a step is an
induction over that sequence. -/

namespace Sys2Proof.Machine

/-- The bus decode selects a row whose condition holds in the decoding state (R305, R412). -/
theorem decodeBus_condition (v : DecodeView) (write : Bool) (a : Offset) (d : Byte) :
    (decodeBus v write a d).condition v = true := by
  unfold decodeBus
  split <;> (repeat' split) <;> grind [Instr.condition]

/-- The bus decode selects no operation of a composite (R412). -/
theorem decodeBus_isComposite (v : DecodeView) (write : Bool) (a : Offset) (d : Byte) :
    (decodeBus v write a d).isComposite = false := by
  unfold decodeBus
  split <;> (repeat' split) <;> rfl

/-- A channel word decodes to a row of the channel, in a state that meets the row's condition. -/
theorem decodeChannelWord_ok {v : DecodeView} {w : BitVec 13} {i : Instr}
    (h : decodeChannelWord v w = .ok i) : i.condition v = true ∧ i.isComposite = false := by
  unfold decodeChannelWord at h
  split at h
  · split at h
    · cases h; exact ⟨rfl, rfl⟩
    · split at h
      · cases h; exact ⟨rfl, rfl⟩
      · cases h
  · cases h; exact ⟨decodeBus_condition .., decodeBus_isComposite ..⟩

/-- A composite word decodes to an operation of the composite. -/
theorem decodeCompositeWord_ok {w : BitVec 15} {i : Instr} (h : decodeCompositeWord w = .ok i) :
    i.isComposite = true := by
  unfold decodeCompositeWord at h
  split at h
  · split at h
    · cases h; rfl
    · split at h
      · cases h; rfl
      · cases h
  · split at h <;> cases h <;> rfl

/-- A row of the channel runs its call on the stand-alone channel. -/
theorem exec_of_not_composite {i : Instr} (s : State) (hi : i.isComposite = false) :
    exec i s = .next (s.onChannel (channelCall i)) := by
  cases i <;> simp [Instr.isComposite] at hi <;> rfl

/-- The three ways an operation runs on the machine's devices: on the stand-alone channel, on the selected child,
or on every child. The operation's condition holds of the channel it runs on. -/
inductive State.Runs (s : State) : State → Prop
  | standalone (i : Instr) (hc : i.condition s.chan.view = true) : s.Runs (s.onChannel (channelCall i))
  | selected (ao : AggregateOffset) (i : Instr) (hc : i.condition (s.comp.selected ao).view = true) :
      s.Runs (s.onSelected ao (channelCall i))
  | everyChild (i : Instr) (hc : ∀ v, i.condition v = true) : s.Runs (s.onEveryChild (channelCall i))

/-- A bus access to a child is the operation its decode selects (R1103). -/
theorem State.runs_busAccess (s : State) (ao : AggregateOffset) (write : Bool) (off : Offset) (d : Byte) :
    s.Runs (s.onSelected ao (busAccess write off d)) :=
  .selected ao (decodeBus (s.comp.selected ao).view write off d) (decodeBus_condition ..)

/-- An operation of the composite runs on one child or on all. -/
theorem exec_of_composite {i : Instr} (s : State) (hi : i.isComposite = true) :
    ∃ t, exec i s = .next t ∧ s.Runs t := by
  cases i with
  | crd ao => exact ⟨_, rfl, s.runs_busAccess ao false (localOf ao) 0x00⟩
  | cwr ao d => exact ⟨_, rfl, s.runs_busAccess ao true (localOf ao) d⟩
  | ctick => exact ⟨_, rfl, .everyChild .tick fun _ => rfl⟩
  | creset => exact ⟨_, rfl, .everyChild .reset fun _ => rfl⟩
  | _ => cases hi

/-- What a step can do: it uses up the host's next word and runs an operation (R103, R410). -/
theorem step_runs {s t : State} (h : step s = .next t) :
    ∃ word rest, s.program = word :: rest ∧ (s.advance rest).Runs t := by
  unfold step at h
  split at h
  · cases h
  next word rest hp =>
    refine ⟨word, rest, hp, ?_⟩
    split at h
    next i hd =>
      cases word with
      | channel w =>
        obtain ⟨hc, hi⟩ := decodeChannelWord_ok hd
        rw [exec_of_not_composite _ hi] at h
        cases h
        exact .standalone i hc
      | composite w =>
        obtain ⟨u, hu, hr⟩ := exec_of_composite (s.advance rest) (decodeCompositeWord_ok hd)
        rw [hu] at h
        cases h
        exact hr
    · cases h

theorem State.Runs.program_eq {s t : State} (h : s.Runs t) : t.program = s.program := by
  cases h <;> simp

theorem State.Runs.pos_eq {s t : State} (h : s.Runs t) : t.pos = s.pos := by
  cases h <;> simp

/-- A sequence of operations on single channels: what it does to the list of the channels and to the log. -/
inductive Acts : List Channel → List Event → List Channel → List Event → Prop
  | refl (cs : List Channel) (es : List Event) : Acts cs es cs es
  | act {cs cs' : List Channel} {es es' : List Event} {n : Nat} {c : Channel} (i : Instr)
      (hn : cs[n]? = some c) (hc : i.condition c.view = true)
      (rest : Acts (cs.set n (channelCall i ⟨c, es, none⟩).ch) (channelCall i ⟨c, es, none⟩).events cs' es') :
      Acts cs es cs' es'

/-- Every child in turn is one operation on each channel of the composite, in order (R1104, R1105). -/
theorem State.acts_onEveryChild (s : State) {i : Instr} (hc : ∀ v, i.condition v = true) :
    Acts s.channels s.events (s.onEveryChild (channelCall i)).channels
      (s.onEveryChild (channelCall i)).events := by
  obtain ⟨chan, comp, program, pos, events, result⟩ := s
  cases comp with
  | dual c0 c1 =>
    exact .act (n := 1) i rfl (hc _) (.act (n := 2) i rfl (hc _) (.refl ..))
  | quad c0 c1 c2 c3 =>
    exact .act (n := 1) i rfl (hc _) (.act (n := 2) i rfl (hc _)
      (.act (n := 3) i rfl (hc _) (.act (n := 4) i rfl (hc _) (.refl ..))))

/-- For the channels and the log, a run is a sequence of operations on single channels. -/
theorem State.Runs.acts {s t : State} (h : s.Runs t) : Acts s.channels s.events t.channels t.events := by
  cases h with
  | standalone i hc => exact .act (n := 0) i rfl hc (.refl ..)
  | selected ao i hc =>
    refine .act (n := s.comp.childIndex ao + 1) i (s.comp.childAt_childIndex ao) hc ?_
    simp only [State.channels, List.set_cons_succ, ← Composite.children_replace]
    exact .refl ..
  | everyChild i hc => exact s.acts_onEveryChild hc

/-- For the channels and the log, a step is a sequence of operations on single channels. -/
theorem step_acts {s t : State} (h : step s = .next t) : Acts s.channels s.events t.channels t.events := by
  obtain ⟨_, rest, _, hr⟩ := step_runs h
  exact hr.acts

/-- What every operation keeps of its channel, a sequence of operations keeps of every channel. -/
theorem Acts.forall_mem {P : Channel → Prop}
    (hop : ∀ (i : Instr) (k : Call), i.condition k.ch.view = true → P k.ch → P (channelCall i k).ch)
    {cs cs' : List Channel} {es es' : List Event} (ha : Acts cs es cs' es') (h : ∀ c ∈ cs, P c) :
    ∀ c ∈ cs', P c := by
  induction ha with
  | refl => exact h
  | act i hn hc _ ih =>
    refine ih fun c' hc' => ?_
    obtain hmem | rfl := List.mem_or_eq_of_mem_set hc'
    · exact h c' hmem
    · exact hop i _ hc (h _ (List.mem_of_getElem? hn))

/-- What every operation keeps of its channel, a step keeps of every channel. -/
theorem step_everywhere {P : Channel → Prop}
    (hop : ∀ (i : Instr) (k : Call), i.condition k.ch.view = true → P k.ch → P (channelCall i k).ch)
    {s t : State} (hs : s.Everywhere P) (h : step s = .next t) : t.Everywhere P :=
  (step_acts h).forall_mem hop hs

/-- Settles O6: a run of an operation leaves the host's sequence as `State.advance` has made it. -/
theorem everyStepAdvancesThePositionByOne : Obligations.EveryStepAdvancesThePositionByOne := by
  unfold Obligations.EveryStepAdvancesThePositionByOne
  intro s t h
  obtain ⟨word, rest, hp, hr⟩ := step_runs h
  refine ⟨hr.pos_eq, word, ?_⟩
  rw [hr.program_eq, hp, State.advance_program]

end Sys2Proof.Machine
end

section
/-! The configuration and the delivered level (R100, R132, R1204). Every procedure keeps the channel's
configuration, calls back about its own channel only, and leaves `int_line` at the level last delivered. -/

namespace Sys2Proof.Machine

/-- What a procedure on one channel does to the configuration and to the delivered levels. -/
structure Call.KeepsLine (k k' : Call) : Prop where
  cfg    : k'.ch.cfg = k.ch.cfg
  others : ∀ h, h ≠ k.ch.cfg.handle → lineLevel h k'.events = lineLevel h k.events
  own    : lineLevel k.ch.cfg.handle k.events = some k.ch.intLine →
    lineLevel k.ch.cfg.handle k'.events = some k'.ch.intLine

namespace Call.KeepsLine

theorem refl (k : Call) : k.KeepsLine k := ⟨rfl, fun _ _ => rfl, id⟩

section Then
variable {k k' k₁ k₂ : Call} (h : k.KeepsLine k')
include h

theorem trans (h' : k'.KeepsLine k₁) : k.KeepsLine k₁ where
  cfg := h'.cfg.trans h.cfg
  others g hg := (h'.others g (h.cfg ▸ hg)).trans (h.others g hg)
  own hl := by
    have := h'.own (by rw [h.cfg]; exact h.own hl)
    rwa [h.cfg] at this

/-- A change of the channel that is none of the configuration or of `int_line`. -/
theorem thenModify {f : Channel → Channel} (hcfg : (f k'.ch).cfg = k'.ch.cfg)
    (hline : (f k'.ch).intLine = k'.ch.intLine) : k.KeepsLine (k'.modify f) :=
  h.trans ⟨hcfg, fun _ _ => rfl, fun hl => by rw [Call.modify_events, Call.modify_ch, hline, hl]⟩

/-- A callback that delivers no level. -/
theorem thenEmit {e : Event} (he : ∀ g, e.levelFor g = none) : k.KeepsLine (k'.emit e) :=
  h.trans ⟨rfl, fun g _ => lineLevel_append_of_none g _ e (he g),
    fun hl => (lineLevel_append_of_none _ _ e (he _)).trans hl⟩

theorem thenRet {v : Byte} : k.KeepsLine (k'.ret v) := h.trans ⟨rfl, fun _ _ => rfl, id⟩

/-- A recomputation delivers the new level to its own channel (R804). -/
theorem thenRecompute : k.KeepsLine (recompute k') :=
  h.trans ⟨rfl, fun g hg => lineLevel_append_of_none g _ _ (if_neg (Ne.symm hg)),
    fun _ => lineLevel_append_line ..⟩

theorem thenTrigger {src : BitVec 5} : k.KeepsLine (trigger src k') := thenRecompute (thenModify h rfl rfl)

theorem thenClear {src : BitVec 5} : k.KeepsLine (clear src k') := thenRecompute (thenModify h rfl rfl)

end Then

/-- A procedure with a condition keeps the line if both branches do. -/
theorem cond {k k₁ k₂ : Call} {p : Prop} [Decidable p] (h₁ : k.KeepsLine k₁) (h₂ : k.KeepsLine k₂) :
    k.KeepsLine (if p then k₁ else k₂) := by
  split
  · exact h₁
  · exact h₂

end Call.KeepsLine

section Channels
variable (c : Channel)

@[simp] theorem txStartFromFifo_cfg : (txStartFromFifo c).cfg = c.cfg := by
  unfold txStartFromFifo; split <;> rfl
@[simp] theorem txStartFromFifo_intLine : (txStartFromFifo c).intLine = c.intLine := by
  unfold txStartFromFifo; split <;> rfl
@[simp] theorem popRx_cfg : (popRx c).cfg = c.cfg := by
  unfold popRx; split <;> rfl
@[simp] theorem popRx_intLine : (popRx c).intLine = c.intLine := by
  unfold popRx; split <;> rfl
@[simp] theorem settleRx_cfg : (settleRx c).cfg = c.cfg := by
  unfold settleRx; split <;> rfl
@[simp] theorem settleRx_intLine : (settleRx c).intLine = c.intLine := by
  unfold settleRx; split <;> rfl

end Channels

section Procedures
open Call.KeepsLine
variable {k k' : Call} (h : k.KeepsLine k')
include h

theorem updateTxFlags_keepsLine : k.KeepsLine (updateTxFlags k') :=
  cond (thenTrigger (thenModify h rfl rfl)) (thenModify h rfl rfl)

theorem txWriteUnbuf_keepsLine (v : Byte) : k.KeepsLine (txWriteUnbuf v k') := by
  refine updateTxFlags_keepsLine (thenModify (thenClear (thenModify h rfl rfl)) ?_ ?_)
  · split <;> rfl
  · split <;> rfl

theorem txWriteFifo_keepsLine (v : Byte) : k.KeepsLine (txWriteFifo v k') := by
  refine updateTxFlags_keepsLine (thenModify (thenModify (thenClear (thenModify h rfl rfl)) ?_ ?_) ?_ ?_)
  · split <;> rfl
  · split <;> rfl
  · split <;> simp
  · split <;> simp

theorem txComplete_keepsLine : k.KeepsLine (txComplete k') := by
  refine updateTxFlags_keepsLine (thenModify (thenModify (thenEmit h fun _ => rfl) rfl rfl) ?_ ?_)
  · split
    · simp
    · split <;> rfl
  · split
    · simp
    · split <;> rfl

theorem txServiceStep_keepsLine : k.KeepsLine (txServiceStep k') :=
  cond (cond (txComplete_keepsLine (thenModify h rfl rfl)) (thenModify h rfl rfl)) h

theorem rxAcceptUnbuf_keepsLine (b : Byte) : k.KeepsLine (rxAcceptUnbuf b k') :=
  cond (thenTrigger (thenModify h rfl rfl)) (thenTrigger (thenModify h rfl rfl))

theorem rxAcceptFifo_keepsLine (b : Byte) : k.KeepsLine (rxAcceptFifo b k') :=
  cond (thenTrigger (thenModify h rfl rfl))
    (cond (thenTrigger (thenModify h rfl rfl)) (thenModify h rfl rfl))

theorem rxAccept_keepsLine (a : Option Byte) : k.KeepsLine (rxAccept a k') := by
  cases a with
  | none => exact h
  | some b => exact cond (rxAcceptFifo_keepsLine h b) (rxAcceptUnbuf_keepsLine h b)

theorem rxServiceStep_keepsLine : k.KeepsLine (rxServiceStep k') :=
  rxAccept_keepsLine (thenModify (thenEmit h fun _ => rfl) rfl rfl) _

theorem rxPop_keepsLine : k.KeepsLine (rxPop k') :=
  thenRet (thenRecompute (thenModify (thenModify (thenModify h (popRx_cfg _) (popRx_intLine _)) rfl rfl)
    (settleRx_cfg _) (settleRx_intLine _)))

theorem rxFlush_keepsLine : k.KeepsLine (rxFlush k') := thenModify h rfl rfl

theorem txFlush_keepsLine : k.KeepsLine (txFlush k') := updateTxFlags_keepsLine (thenModify h rfl rfl)

theorem timeoutStep_keepsLine : k.KeepsLine (timeoutStep k') :=
  cond (cond (thenTrigger (thenModify (thenModify h rfl rfl) rfl rfl)) (thenModify h rfl rfl)) h

theorem serviceStep_keepsLine : k.KeepsLine (serviceStep k') := by
  have hr : k.KeepsLine (if k'.ch.rxDisabled then k' else rxServiceStep k') :=
    cond h (rxServiceStep_keepsLine h)
  unfold serviceStep
  exact thenModify (cond hr (txServiceStep_keepsLine hr)) rfl rfl

theorem tickCall_keepsLine : k.KeepsLine (tickCall k') :=
  have ht := timeoutStep_keepsLine h
  cond (serviceStep_keepsLine (thenModify ht rfl rfl)) (thenModify ht rfl rfl)

theorem divisorReprogram_keepsLine : k.KeepsLine (divisorReprogram k') := by
  unfold divisorReprogram
  exact thenModify (cond (txComplete_keepsLine h) h) rfl rfl

theorem fcrFlushes_keepsLine (old : Bool) (d : Byte) : k.KeepsLine (fcrFlushes old d k') :=
  have hr : k.KeepsLine (if d.getLsbD 1 then rxFlush k' else k') := cond (rxFlush_keepsLine h) h
  cond (txFlush_keepsLine (rxFlush_keepsLine h)) (cond (cond (txFlush_keepsLine hr) hr) h)

theorem modemStatusRecompute_keepsLine : k.KeepsLine (modemStatusRecompute k') :=
  cond (thenTrigger (thenModify h rfl rfl)) (thenModify h rfl rfl)

theorem resetCall_keepsLine : k.KeepsLine (resetCall k') := thenRecompute (thenModify h rfl rfl)

omit h in
/-- No operation changes a channel's configuration, and each keeps `int_line` at the level last delivered. -/
theorem channelCall_keepsLine (k : Call) (i : Instr) : k.KeepsLine (channelCall i k) := by
  have h := refl k
  cases i with
  | rdRbr | rdLsr | rdMsr => exact thenRet (thenClear (thenModify h rfl rfl))
  | rdRbrFifo => exact rxPop_keepsLine h
  | wrThr d => exact cond (txWriteFifo_keepsLine h d) (txWriteUnbuf_keepsLine h d)
  | wrDll d | wrDlm d => exact divisorReprogram_keepsLine (thenModify h rfl rfl)
  | rdAsr => exact thenRet (thenModify h rfl rfl)
  | wrIer d => exact cond (thenTrigger (thenModify h rfl rfl)) (thenRecompute (thenModify h rfl rfl))
  | rdIir => exact thenRet (cond (thenClear h) h)
  | wrFcr d => exact cond h (thenRecompute (fcrFlushes_keepsLine (thenModify h rfl rfl) _ d))
  | wrMcr d => exact modemStatusRecompute_keepsLine (thenModify h rfl rfl)
  | wrLsr d | wrMsr d => exact cond (thenTrigger (thenModify h rfl rfl)) (thenModify h rfl rfl)
  | wrIcr d => exact cond h (cond (resetCall_keepsLine h) (thenModify h rfl rfl))
  | tick => exact tickCall_keepsLine h
  | reset => exact resetCall_keepsLine h
  | wrEfr d => exact thenModify (f := fun c => { c with efr := d }) h rfl rfl
  | wrLcr d => exact thenModify (f := fun c => { c with bank650 := false, lcr := d }) h rfl rfl
  | wrLcrBank => exact thenModify (f := fun c => { c with bank650 := true }) h rfl rfl
  | wrXon1 d => exact thenModify (f := fun c => { c with xon1 := d }) h rfl rfl
  | wrScr d => exact thenModify (f := fun c => { c with scr := d }) h rfl rfl
  | rdDll | rdIer | rdDlm | rdEfr | rdLcr | rdMcr | rdXon1 | rdIcr | rdScr => exact thenRet h
  | crd ao | cwr ao d | ctick | creset => exact h

omit h in
theorem channelCall_cfg (k : Call) (i : Instr) : (channelCall i k).ch.cfg = k.ch.cfg := (channelCall_keepsLine k i).cfg

end Procedures

/-- Replacing a channel by one that agrees in `g` keeps the list of the values of `g`. -/
theorem map_set_of_eq {α : Type} (g : Channel → α) {cs : List Channel} {n : Nat} {c c' : Channel}
    (hn : cs[n]? = some c) (hg : g c' = g c) : (cs.set n c').map g = cs.map g := by
  obtain ⟨hlt, rfl⟩ := List.getElem?_eq_some_iff.mp hn
  rw [List.map_set, hg, ← List.getElem_map g (h := by simpa using hlt), List.set_getElem_self]

theorem Acts.map_cfg {cs cs' : List Channel} {es es' : List Event} (ha : Acts cs es cs' es') :
    cs'.map (·.cfg) = cs.map (·.cfg) := by
  induction ha with
  | refl => rfl
  | act i hn _ _ ih => exact ih.trans (map_set_of_eq _ hn (channelCall_cfg ⟨_, _, none⟩ i))

/-- Settles O43: every operation keeps its channel's configuration. -/
theorem noStepChangesAConfiguration : Obligations.NoStepChangesAConfiguration := by
  unfold Obligations.NoStepChangesAConfiguration
  intro s t h
  exact (step_acts h).map_cfg

/-- The level last delivered to the host for each listed channel is its `int_line`. -/
def Delivered (cs : List Channel) (es : List Event) : Prop :=
  ∀ c ∈ cs, lineLevel c.cfg.handle es = some c.intLine

/-- An operation on one channel delivers that channel's new level and disturbs no other, provided that no two
channels share a handle. -/
theorem Delivered.act {cs : List Channel} {es : List Event} {n : Nat} {c : Channel} (i : Instr)
    (hnd : (cs.map (·.cfg.handle)).Nodup) (hn : cs[n]? = some c) (h : Delivered cs es) :
    Delivered (cs.set n (channelCall i ⟨c, es, none⟩).ch) (channelCall i ⟨c, es, none⟩).events := by
  have hk := channelCall_keepsLine ⟨c, es, none⟩ i
  intro c' hc'
  obtain ⟨m, hm⟩ := List.mem_iff_getElem?.mp hc'
  by_cases hmn : m = n
  · subst hmn
    have hlt : m < cs.length := (List.getElem?_eq_some_iff.mp hn).1
    rw [List.getElem?_set_self hlt, Option.some_inj] at hm
    rw [← hm, hk.cfg]
    exact hk.own (h c (List.mem_of_getElem? hn))
  · rw [List.getElem?_set_ne (Ne.symm hmn)] at hm
    have hne : c'.cfg.handle ≠ c.cfg.handle := fun he =>
      hmn ((List.getElem?_inj (by simpa using (List.getElem?_eq_some_iff.mp hm).1) hnd).mp
        (by simp [List.getElem?_map, hm, hn, he]))
    rw [hk.others _ hne]
    exact h c' (List.mem_of_getElem? hm)

theorem Acts.delivered {cs cs' : List Channel} {es es' : List Event} (ha : Acts cs es cs' es')
    (hnd : (cs.map (·.cfg.handle)).Nodup) (h : Delivered cs es) : Delivered cs' es' := by
  induction ha with
  | refl => exact h
  | act i hn _ _ ih =>
    refine ih ?_ (h.act i hnd hn)
    rw [map_set_of_eq _ hn (congrArg ChannelConfig.handle (channelCall_cfg ⟨_, _, none⟩ i))]
    exact hnd

/-- Channels that are called by their own handles have distinct handles (R1101). -/
theorem State.IdentitiesOk.nodup_handles {s : State} (h : s.IdentitiesOk) :
    (s.channels.map (·.cfg.handle)).Nodup := by
  obtain ⟨⟨h0, _⟩, hch⟩ := h
  obtain ⟨chan, comp, program, pos, events, result⟩ := s
  cases comp with
  | dual c0 c1 =>
    have h1 := (hch 0 c0 rfl).1
    have h2 := (hch 1 c1 rfl).1
    simp_all [State.channels, Composite.children]
  | quad c0 c1 c2 c3 =>
    have h1 := (hch 0 c0 rfl).1
    have h2 := (hch 1 c1 rfl).1
    have h3 := (hch 2 c2 rfl).1
    have h4 := (hch 3 c3 rfl).1
    simp_all [State.channels, Composite.children]

/-- The identities are facts about the configurations. -/
theorem State.IdentitiesOk.of_map_cfg {s t : State} (h : s.IdentitiesOk)
    (hcfg : t.channels.map (·.cfg) = s.channels.map (·.cfg)) : t.IdentitiesOk := by
  simp only [State.channels, List.map_cons, List.cons.injEq] at hcfg
  obtain ⟨h0, hch⟩ := hcfg
  refine ⟨h0 ▸ h.standalone, fun i c hc => ?_⟩
  have hi := congrArg (·[i.val]?) hch
  simp only [List.getElem?_map] at hi
  rw [show t.comp.children[i.val]? = some c from hc] at hi
  obtain ⟨c₀, hc₀, he⟩ := Option.map_eq_some_iff.mp hi.symm
  have := h.children i c₀ hc₀
  rwa [he] at this

/-- Settles O51: the handles are distinct, so each operation delivers exactly its own channel's level. -/
theorem stepsDeliverEveryLineLevel : Obligations.StepsDeliverEveryLineLevel := by
  unfold Obligations.StepsDeliverEveryLineLevel
  intro s t hid hl h
  have ha := step_acts h
  exact ⟨hid.of_map_cfg ha.map_cfg, ha.delivered hid.nodup_handles hl⟩

end Sys2Proof.Machine
end

section
/-! The two halves of a channel's pipeline. The transmitter's procedures leave the receiver, the timers and the
parameters as they are (`rxView`), the receiver's and the timers' leave the transmitter and the parameters
(`txView`), and an operation that does not drive the pipeline leaves both. An invariant of one half is then kept
by every operation if the few procedures of that half keep it. -/

namespace Sys2Proof.Machine

/-- What the transmitter's invariants read, and the parameters: every other element is as in a new channel, and of
the LSR only THRE and TEMT stand. -/
def Channel.txView (c : Channel) : Channel :=
  { Channel.initial c.cfg with
    fcr := c.fcr, icr := c.icr, latches := c.latches, lsr := c.lsr &&& 0x60
    tx := c.tx, tsrBusy := c.tsrBusy, thrPending := c.thrPending, txBits := c.txBits }

/-- What the receiver's and the timers' invariants read, and the parameters: every other element is as in a new
channel. -/
def Channel.rxView (c : Channel) : Channel :=
  { Channel.initial c.cfg with
    fcr := c.fcr, icr := c.icr, latches := c.latches
    rx := c.rx, baudCnt := c.baudCnt, toArmed := c.toArmed, toCnt := c.toCnt }

theorem txFlags_getLsbD : ∀ v : Byte,
    (v &&& 0x60).getLsbD 5 = v.getLsbD 5 ∧ (v &&& 0x60).getLsbD 6 = v.getLsbD 6 := by decide

theorem setBit_dr_txFlags : ∀ (v : Byte) (x : Bool), setBit v 0 x &&& 0x60 = v &&& 0x60 := by decide
theorem setBit_oe_txFlags : ∀ (v : Byte) (x : Bool), setBit v 1 x &&& 0x60 = v &&& 0x60 := by decide
theorem lsrAfterRead_txFlags : ∀ v : Byte, lsrAfterRead v &&& 0x60 = v &&& 0x60 := by decide

/-- A forced LSR write keeps THRE and TEMT (R702). -/
theorem forcedLsr_txFlags (v d : Byte) : forcedLsr v d &&& 0x60 = v &&& 0x60 := by
  simp [forcedLsr, BitVec.and_or_distrib_right, BitVec.and_assoc]

/-- Changing other bits of the LSR than THRE and TEMT leaves the transmitter's view. -/
theorem Channel.txView_lsr (c : Channel) {l : Byte} (hl : l &&& 0x60 = c.lsr &&& 0x60) :
    ({ c with lsr := l } : Channel).txView = c.txView := by
  simp only [Channel.txView, hl]

/-- What `TxComplete` loads into the idle TSR (R907): the oldest byte of the FIFO, or the waiting THR. -/
def loadNext (c : Channel) : Channel :=
  if c.fifoOn then txStartFromFifo c
  else if c.thrPending then txStart c.thr { c with thrPending := false }
  else c

/-- What an unbuffered write does to the TSR (R905): the byte waits while the TSR is busy, else it starts. -/
def startOrWait (v : Byte) (c : Channel) : Channel :=
  if c.tsrBusy then { c with thrPending := true } else txStart v c

/-- What a FIFO write queues (R906): a full FIFO discards the byte. -/
def queueTx (v : Byte) (c : Channel) : Channel :=
  if c.tx.count < c.depth then { c with tx := c.tx.push c.depth v } else c

/-- An idle TSR takes the oldest byte of the FIFO (R906). -/
def startIfIdle (c : Channel) : Channel := if c.tsrBusy then c else txStartFromFifo c

/-- The LSR is no part of the receiver's view. -/
theorem Channel.rxView_lsr (c : Channel) (l : Byte) : ({ c with lsr := l } : Channel).rxView = c.rxView := rfl

section Transmitter
variable (k : Call) (c : Channel) (b v : Byte)

@[simp] theorem recompute_txView : (recompute k).ch.txView = k.ch.txView := rfl
@[simp] theorem recompute_rxView : (recompute k).ch.rxView = k.ch.rxView := rfl
@[simp] theorem trigger_txView (src : BitVec 5) : (trigger src k).ch.txView = k.ch.txView := rfl
@[simp] theorem trigger_rxView (src : BitVec 5) : (trigger src k).ch.rxView = k.ch.rxView := rfl

theorem txComplete_eq : txComplete k = updateTxFlags
    (((k.emit (.transmitByte k.ch.cfg.handle k.ch.cfg.sub k.ch.tsrByte)).modify fun c =>
      { c with tsrBusy := false, txBits := 0 }).modify loadNext) := rfl

theorem txWriteUnbuf_eq : txWriteUnbuf v k =
    updateTxFlags ((clear srcThre (k.modify fun c => { c with thr := v })).modify (startOrWait v)) := rfl

theorem txWriteFifo_eq : txWriteFifo v k = updateTxFlags (((clear srcThre (k.modify fun c =>
    { c with thr := v, lsr := setBit (setBit c.lsr 5 false) 6 false })).modify (queueTx v)).modify
      startIfIdle) := rfl

theorem updateTxFlags_txView :
    (updateTxFlags k).ch.txView = ({ k.ch with lsr := k.ch.lsrWithTxFlags } : Channel).txView := by
  rw [updateTxFlags_ch]
  split <;> rfl

@[simp] theorem updateTxFlags_rxView : (updateTxFlags k).ch.rxView = k.ch.rxView := by
  rw [updateTxFlags_ch]
  split <;> rfl

@[simp] theorem txStartFromFifo_rxView : (txStartFromFifo c).rxView = c.rxView := by
  unfold txStartFromFifo
  split <;> rfl

@[simp] theorem loadNext_rxView : (loadNext c).rxView = c.rxView := by
  unfold loadNext
  split
  · exact txStartFromFifo_rxView c
  · split <;> rfl

@[simp] theorem startOrWait_rxView : (startOrWait v c).rxView = c.rxView := by
  unfold startOrWait
  split <;> rfl

@[simp] theorem queueTx_rxView : (queueTx v c).rxView = c.rxView := by
  unfold queueTx
  split <;> rfl

@[simp] theorem startIfIdle_rxView : (startIfIdle c).rxView = c.rxView := by
  unfold startIfIdle
  split
  · rfl
  · exact txStartFromFifo_rxView c

@[simp] theorem txWriteUnbuf_rxView : (txWriteUnbuf v k).ch.rxView = k.ch.rxView := by
  rw [txWriteUnbuf_eq, updateTxFlags_rxView, Call.modify_ch, startOrWait_rxView]
  rfl

@[simp] theorem txWriteFifo_rxView : (txWriteFifo v k).ch.rxView = k.ch.rxView := by
  rw [txWriteFifo_eq, updateTxFlags_rxView, Call.modify_ch, startIfIdle_rxView, Call.modify_ch,
    queueTx_rxView]
  rfl

@[simp] theorem txComplete_rxView : (txComplete k).ch.rxView = k.ch.rxView := by
  rw [txComplete_eq, updateTxFlags_rxView, Call.modify_ch, loadNext_rxView]
  rfl

@[simp] theorem txServiceStep_rxView : (txServiceStep k).ch.rxView = k.ch.rxView := by
  unfold txServiceStep
  split
  · dsimp only
    split
    · rw [txComplete_rxView]; rfl
    · rfl
  · rfl

@[simp] theorem txFlush_rxView : (txFlush k).ch.rxView = k.ch.rxView := by
  rw [txFlush, updateTxFlags_rxView]
  rfl

end Transmitter

section Receiver
variable (k : Call) (c : Channel) (b : Byte)

@[simp] theorem rxAcceptUnbuf_txView : (rxAcceptUnbuf b k).ch.txView = k.ch.txView := by
  unfold rxAcceptUnbuf
  split
  · exact k.ch.txView_lsr (setBit_oe_txFlags _ _)
  · exact k.ch.txView_lsr (setBit_dr_txFlags _ _)

@[simp] theorem rxAcceptUnbuf_rxView : (rxAcceptUnbuf b k).ch.rxView = k.ch.rxView := by
  have hr (b l : Byte) : ({ k.ch with rbr := b, lsr := l } : Channel).rxView = k.ch.rxView := rfl
  unfold rxAcceptUnbuf
  split
  · exact (trigger_rxView ..).trans (k.ch.rxView_lsr _)
  · exact (trigger_rxView ..).trans (hr _ _)

@[simp] theorem rxAcceptFifo_txView : (rxAcceptFifo b k).ch.txView = k.ch.txView := by
  unfold rxAcceptFifo
  split
  · exact k.ch.txView_lsr (setBit_oe_txFlags _ _)
  · dsimp only
    split <;> exact k.ch.txView_lsr (setBit_dr_txFlags _ _)

@[simp] theorem rxServiceStep_txView : (rxServiceStep k).ch.txView = k.ch.txView := by
  unfold rxServiceStep rxAccept
  split
  · rfl
  · split
    · rw [rxAcceptFifo_txView]; rfl
    · rw [rxAcceptUnbuf_txView]; rfl

@[simp] theorem popRx_txView : (popRx c).txView = c.txView := by
  unfold popRx
  split <;> rfl

@[simp] theorem settleRx_txView : (settleRx c).txView = c.txView := by
  unfold settleRx
  split
  · exact c.txView_lsr (setBit_dr_txFlags _ _)
  · rfl

@[simp] theorem rxPop_txView : (rxPop k).ch.txView = k.ch.txView := by
  have hs := settleRx_txView { popRx k.ch with pending := (popRx k.ch).pendingAfterPop }
  exact hs.trans (popRx_txView k.ch)

@[simp] theorem rxFlush_txView : (rxFlush k).ch.txView = k.ch.txView :=
  k.ch.txView_lsr (setBit_dr_txFlags _ _)

@[simp] theorem timeoutStep_txView : (timeoutStep k).ch.txView = k.ch.txView := by
  rw [timeoutStep_ch]
  split
  · split <;> rfl
  · rfl

end Receiver

/-- The operations that drive the pipeline, the timers or the parameters. -/
def drivesPipeline : Instr → Bool
  | .rdRbrFifo | .wrThr _ | .wrDll _ | .wrDlm _ | .wrFcr _ | .wrIcr _ | .tick | .reset => true
  | _ => false

/-- Both halves of a channel are the same in another. -/
def Channel.SameViews (c c' : Channel) : Prop := c'.txView = c.txView ∧ c'.rxView = c.rxView

section SameViews
variable {c : Channel} {k : Call}

theorem Channel.sameViews_lsr {l : Byte} (hl : l &&& 0x60 = c.lsr &&& 0x60) : c.SameViews { c with lsr := l } :=
  ⟨c.txView_lsr hl, c.rxView_lsr l⟩

theorem Channel.sameViews_msr (m : Byte) : c.SameViews { c with msr := m } := ⟨rfl, rfl⟩

theorem Channel.sameViews_mcr (m : Byte) : c.SameViews { c with mcr := m } := ⟨rfl, rfl⟩

theorem Channel.sameViews_ier (b : Byte) : c.SameViews { c with ier := b } := ⟨rfl, rfl⟩

theorem Channel.SameViews.trigger {src : BitVec 5} (h : c.SameViews k.ch) : c.SameViews (trigger src k).ch :=
  ⟨(trigger_txView ..).trans h.1, (trigger_rxView ..).trans h.2⟩

theorem Channel.SameViews.clear {src : BitVec 5} (h : c.SameViews k.ch) : c.SameViews (clear src k).ch := h

/-- The modem status is no part of either half (R705). -/
theorem Channel.SameViews.modemStatusRecompute (h : c.SameViews k.ch) :
    c.SameViews (modemStatusRecompute k).ch := by
  have hm (m : Byte) : c.SameViews { k.ch with msr := m } := h
  unfold Machine.modemStatusRecompute
  dsimp only
  split
  · exact .trigger (hm _)
  · exact hm _

end SameViews

/-- Every other operation leaves both halves of the pipeline as they are. -/
theorem channelCall_sameViews {i : Instr} (hi : drivesPipeline i = false) (k : Call) :
    k.ch.SameViews (channelCall i k).ch := by
  cases i with
  | rdRbr =>
    exact .clear (k := k.modify fun c => { c with lsr := setBit c.lsr 0 false })
      (Channel.sameViews_lsr (setBit_dr_txFlags _ _))
  | rdLsr =>
    exact .clear (k := k.modify fun c => { c with lsr := lsrAfterRead c.lsr })
      (Channel.sameViews_lsr (lsrAfterRead_txFlags _))
  | rdMsr =>
    exact .clear (k := k.modify fun c => { c with msr := c.msr &&& 0xF0 }) (Channel.sameViews_msr _)
  | wrLsr d =>
    have hl : k.ch.SameViews (k.modify fun c => { c with lsr := forcedLsr c.lsr d }).ch :=
      Channel.sameViews_lsr (forcedLsr_txFlags _ _)
    simp only [channelCall, wrLsrCall]
    split
    · exact .trigger hl
    · exact hl
  | wrMsr d =>
    simp only [channelCall, wrMsrCall]
    split
    · exact .trigger (Channel.sameViews_msr d)
    · exact Channel.sameViews_msr d
  | wrIer d =>
    have hi : k.ch.SameViews (k.modify fun c => { c with ier := storedIer c.cfg.variant d }).ch :=
      Channel.sameViews_ier _
    simp only [channelCall, wrIerCall]
    split
    · exact .trigger hi
    · exact hi
  | rdIir =>
    simp only [channelCall, rdIirCall]
    split <;> exact ⟨rfl, rfl⟩
  | wrMcr d =>
    exact .modemStatusRecompute (k := k.modify fun c => { c with mcr := storedMcr c.cfg.variant d })
      (Channel.sameViews_mcr _)
  | rdRbrFifo | wrThr d | wrDll d | wrDlm d | wrFcr d | wrIcr d | tick | reset => cases hi
  | _ => exact ⟨rfl, rfl⟩

/-- A tick keeps what its parts keep (R1005): the timeout step, the two service steps and the countdown. -/
theorem tickCall_keeps {P : Channel → Prop} (timeout : ∀ k : Call, P k.ch → P (timeoutStep k).ch)
    (receive : ∀ k : Call, P k.ch → P (rxServiceStep k).ch)
    (transmit : ∀ k : Call, P k.ch → P (txServiceStep k).ch)
    (countdown : ∀ (c : Channel) (n : Nat), P c → P { c with baudCnt := n }) (k : Call) (h : P k.ch) :
    P (tickCall k).ch := by
  have h₁ : P ((timeoutStep k).modify fun c => { c with baudCnt := c.baudCnt - 1 }).ch :=
    countdown _ _ (timeout k h)
  unfold tickCall
  dsimp only
  split
  · unfold serviceStep
    refine countdown _ _ ?_
    split <;> split
    · exact h₁
    · exact transmit _ h₁
    · exact receive _ h₁
    · exact transmit _ (receive _ h₁)
  · exact h₁

/-- A receive-service step keeps what taking a byte in the FIFO discipline keeps, where the rest of it changes
nothing of the receiver's half (R911). -/
theorem rxServiceStep_keeps {P : Channel → Prop} (view : ∀ {c c' : Channel}, c'.rxView = c.rxView → P c → P c')
    (accept : ∀ (b : Byte) (k : Call), k.ch.fifoOn = true → P k.ch → P (rxAcceptFifo b k).ch)
    (k : Call) (h : P k.ch) : P (rxServiceStep k).ch := by
  have hcall : P (callRx k).ch := view (c := k.ch) rfl h
  unfold rxServiceStep rxAccept
  split
  · exact hcall
  · split
    · next hf => exact accept _ _ hf hcall
    · exact view (rxAcceptUnbuf_rxView ..) hcall

/-- An FCR byte with the same bit 0 leaves the discipline (R900). -/
theorem Channel.fifoOn_fcr {c : Channel} {f : Byte} (hf : f.getLsbD 0 = c.fcr.getLsbD 0) :
    ({ c with fcr := f } : Channel).fifoOn = c.fifoOn := by
  simp only [Channel.fifoOn, hf]

/-- The flushes of an FCR write (R605): both where the discipline changes, else any of them. -/
theorem fcrFlushes_cases (old : Bool) (d : Byte) (k : Call) :
    fcrFlushes old d k = txFlush (rxFlush k) ∨
    k.ch.fcr.getLsbD 0 = old ∧
      (fcrFlushes old d k = k ∨ fcrFlushes old d k = rxFlush k ∨ fcrFlushes old d k = txFlush k) := by
  unfold fcrFlushes
  split
  · exact .inl rfl
  · next hold =>
    have hold : k.ch.fcr.getLsbD 0 = old := by simpa using hold
    split
    · cases d.getLsbD 1 <;> cases d.getLsbD 2
      · exact .inr ⟨hold, .inl rfl⟩
      · exact .inr ⟨hold, .inr (.inr rfl)⟩
      · exact .inr ⟨hold, .inr (.inl rfl)⟩
      · exact .inl rfl
    · exact .inr ⟨hold, .inl rfl⟩

/-- FCR stored, before any flush (R605). -/
def storeFcr (f : Byte) (k : Call) : Call := k.modify fun c => { c with fcr := f }

/-- What an FCR write can do (R605): nothing on a variant without FIFOs; else it stores FCR and flushes. -/
theorem wrFcrCall_cases (d : Byte) (k : Call) :
    wrFcrCall d k = k ∨
    wrFcrCall d k = recompute (txFlush (rxFlush (storeFcr (storedFcr d) k))) ∨
    (storedFcr d).getLsbD 0 = k.ch.fcr.getLsbD 0 ∧
      (wrFcrCall d k = recompute (storeFcr (storedFcr d) k) ∨
        wrFcrCall d k = recompute (rxFlush (storeFcr (storedFcr d) k)) ∨
        wrFcrCall d k = recompute (txFlush (storeFcr (storedFcr d) k))) := by
  by_cases hd : k.ch.depth = 0
  · exact .inl (if_pos hd)
  · have hw : wrFcrCall d k =
        recompute (fcrFlushes (k.ch.fcr.getLsbD 0) d (storeFcr (storedFcr d) k)) := if_neg hd
    rw [hw]
    obtain h | ⟨hb, h | h | h⟩ := fcrFlushes_cases (k.ch.fcr.getLsbD 0) d (storeFcr (storedFcr d) k) <;>
      rw [h]
    · exact .inr (.inl rfl)
    · exact .inr (.inr ⟨hb, .inl rfl⟩)
    · exact .inr (.inr ⟨hb, .inr (.inl rfl)⟩)
    · exact .inr (.inr ⟨hb, .inr (.inr rfl)⟩)

/-- What an ICR write can do (R616): nothing, a reset, or one entry stored that is no identification entry. -/
theorem wrIcrCall_cases (d : Byte) (k : Call) :
    wrIcrCall d k = k ∨ wrIcrCall d k = resetCall k ∨
    isIdIndex k.ch.scr.toNat = false ∧
      wrIcrCall d k = k.modify fun c => { c with icr := Memory.write c.icr c.scr.toNat d } := by
  unfold wrIcrCall
  split
  · exact .inl rfl
  · next hid =>
    split
    · exact .inr (.inl rfl)
    · exact .inr (.inr ⟨by simpa using hid, rfl⟩)

/-- An invariant of the transmitter: it reads only the transmitter's half, and the procedures of that half keep
it. The parameters' invariant is one too. -/
structure KeptByTransmitter (P : Channel → Prop) : Prop where
  view        : ∀ {c c' : Channel}, c'.txView = c.txView → P c → P c'
  writeFifo   : ∀ (v : Byte) (k : Call), k.ch.fifoOn = true → P k.ch → P (txWriteFifo v k).ch
  writeUnbuf  : ∀ (v : Byte) (k : Call), k.ch.fifoOn = false → P k.ch → P (txWriteUnbuf v k).ch
  complete    : ∀ k : Call, P k.ch → P (txComplete k).ch
  serviceStep : ∀ k : Call, P k.ch → P (txServiceStep k).ch
  flush       : ∀ (f : Byte) (k : Call), P k.ch → P (txFlush (storeFcr f k)).ch
  fcr         : ∀ (f : Byte) (c : Channel), f.getLsbD 0 = c.fcr.getLsbD 0 → P c → P { c with fcr := f }
  icr         : ∀ (n : Nat) (b : Byte) (c : Channel), isIdIndex n = false → P c →
    P { c with icr := Memory.write c.icr n b }
  reset       : ∀ c : Channel, P c → P (resetRegisters c)

namespace KeptByTransmitter
variable {P : Channel → Prop} (hP : KeptByTransmitter P)
include hP

theorem divisorReprogram (k : Call) (h : P k.ch) : P (divisorReprogram k).ch := by
  unfold Machine.divisorReprogram
  refine hP.view (c := (if k.ch.tsrBusy then txComplete k else k).ch) rfl ?_
  split
  · exact hP.complete k h
  · exact h

theorem wrFcr (d : Byte) (k : Call) (h : P k.ch) : P (wrFcrCall d k).ch := by
  have hstore := hP.fcr (storedFcr d) k.ch
  obtain he | he | ⟨hb, he | he | he⟩ := wrFcrCall_cases d k <;> rw [he]
  · exact h
  · exact hP.view (recompute_txView _) (hP.flush _ (rxFlush k) (hP.view (rxFlush_txView k) h))
  · exact hP.view (recompute_txView _) (hstore hb h)
  · exact hP.view ((recompute_txView _).trans (rxFlush_txView _)) (hstore hb h)
  · exact hP.view (recompute_txView _) (hP.flush _ k h)

theorem wrIcr (d : Byte) (k : Call) (h : P k.ch) : P (wrIcrCall d k).ch := by
  obtain he | he | ⟨hid, he⟩ := wrIcrCall_cases d k <;> rw [he]
  · exact h
  · exact hP.view (recompute_txView _) (hP.reset k.ch h)
  · exact hP.icr _ d k.ch hid h

theorem tick (k : Call) (h : P k.ch) : P (tickCall k).ch :=
  tickCall_keeps (fun k => hP.view (timeoutStep_txView k)) (fun k => hP.view (rxServiceStep_txView k))
    hP.serviceStep (fun _ _ => hP.view rfl) k h

/-- Every operation keeps an invariant of the transmitter. -/
theorem channelCall (i : Instr) (k : Call) (h : P k.ch) : P (channelCall i k).ch := by
  cases i with
  | rdRbrFifo => exact hP.view (rxPop_txView k) h
  | wrThr d =>
    simp only [Machine.channelCall, wrThrCall]
    split
    · next hf => exact hP.writeFifo d k hf h
    · next hf => exact hP.writeUnbuf d k (by simpa using hf) h
  | wrDll d => exact hP.divisorReprogram (k.modify fun c => { c with dll := d }) (hP.view (c := k.ch) rfl h)
  | wrDlm d => exact hP.divisorReprogram (k.modify fun c => { c with dlm := d }) (hP.view (c := k.ch) rfl h)
  | wrFcr d => exact hP.wrFcr d k h
  | wrIcr d => exact hP.wrIcr d k h
  | tick => exact hP.tick k h
  | reset => exact hP.view (recompute_txView _) (hP.reset k.ch h)
  | _ => exact hP.view (channelCall_sameViews rfl k).1 h

/-- Every step keeps an invariant of the transmitter. -/
theorem step {s t : State} (hs : s.Everywhere P) (h : step s = .next t) : t.Everywhere P :=
  step_everywhere (fun i k _ => hP.channelCall i k) hs h

end KeptByTransmitter

/-- An invariant of the receiver and the timers: it reads only that half, and the procedures of that half keep
it. -/
structure KeptByReceiver (P : Channel → Prop) : Prop where
  view      : ∀ {c c' : Channel}, c'.rxView = c.rxView → P c → P c'
  pop       : ∀ k : Call, k.ch.fifoOn = true → P k.ch → P (rxPop k).ch
  tick      : ∀ k : Call, P k.ch → P (tickCall k).ch
  reprogram : ∀ c : Channel, P c → P { c with baudCnt := c.baudConst }
  flush     : ∀ (f : Byte) (k : Call), P k.ch → P (rxFlush (storeFcr f k)).ch
  fcr       : ∀ (f : Byte) (c : Channel), f.getLsbD 0 = c.fcr.getLsbD 0 → P c → P { c with fcr := f }
  icr       : ∀ (n : Nat) (b : Byte) (c : Channel), P c → P { c with icr := Memory.write c.icr n b }
  reset     : ∀ c : Channel, P c → P (resetRegisters c)

namespace KeptByReceiver
variable {P : Channel → Prop} (hP : KeptByReceiver P)
include hP

theorem divisorReprogram (k : Call) (h : P k.ch) : P (divisorReprogram k).ch := by
  unfold Machine.divisorReprogram
  refine hP.reprogram _ ?_
  split
  · exact hP.view (txComplete_rxView k) h
  · exact h

theorem wrFcr (d : Byte) (k : Call) (h : P k.ch) : P (wrFcrCall d k).ch := by
  have hstore := hP.fcr (storedFcr d) k.ch
  obtain he | he | ⟨hb, he | he | he⟩ := wrFcrCall_cases d k <;> rw [he]
  · exact h
  · exact hP.view ((recompute_rxView _).trans (txFlush_rxView _)) (hP.flush _ k h)
  · exact hP.view (recompute_rxView _) (hstore hb h)
  · exact hP.view (recompute_rxView _) (hP.flush _ k h)
  · exact hP.view ((recompute_rxView _).trans (txFlush_rxView _)) (hstore hb h)

theorem wrIcr (d : Byte) (k : Call) (h : P k.ch) : P (wrIcrCall d k).ch := by
  obtain he | he | ⟨_, he⟩ := wrIcrCall_cases d k <;> rw [he]
  · exact h
  · exact hP.view (recompute_rxView _) (hP.reset k.ch h)
  · exact hP.icr _ d k.ch h

/-- Every operation keeps an invariant of the receiver in the states that decode to it: a FIFO read is one only in
the FIFO discipline. -/
theorem channelCall (i : Instr) (k : Call) (hc : i.condition k.ch.view = true) (h : P k.ch) :
    P (channelCall i k).ch := by
  cases i with
  | rdRbrFifo =>
    simp only [Instr.condition, Bool.and_eq_true] at hc
    exact hP.pop k hc.2 h
  | wrThr d =>
    simp only [Machine.channelCall, wrThrCall]
    split
    · exact hP.view (txWriteFifo_rxView k d) h
    · exact hP.view (txWriteUnbuf_rxView k d) h
  | wrDll d => exact hP.divisorReprogram (k.modify fun c => { c with dll := d }) (hP.view (c := k.ch) rfl h)
  | wrDlm d => exact hP.divisorReprogram (k.modify fun c => { c with dlm := d }) (hP.view (c := k.ch) rfl h)
  | wrFcr d => exact hP.wrFcr d k h
  | wrIcr d => exact hP.wrIcr d k h
  | tick => exact hP.tick k h
  | reset => exact hP.view (recompute_rxView _) (hP.reset k.ch h)
  | _ => exact hP.view (channelCall_sameViews rfl k).2 h

/-- Every step keeps an invariant of the receiver. -/
theorem step {s t : State} (hs : s.Everywhere P) (h : step s = .next t) : t.Everywhere P :=
  step_everywhere hP.channelCall hs h

end KeptByReceiver

end Sys2Proof.Machine
end

section
/-! The transmitter's invariants (R126 to R128, R903, R916): the TSR's part stands before `UpdateTxFlags`, which
then makes the empty flags agree with it. -/

namespace Sys2Proof.Machine

/-- The TSR's part of the transmitter's invariant (R128), which does not speak of the empty flags. -/
structure Channel.TsrOk (c : Channel) : Prop where
  busy    : c.tsrBusy = decide (0 < c.txBits)
  bits    : c.txBits ≤ 12
  queued  : c.thrPending = true → c.tsrBusy = true
  noQueue : c.fifoOn = true → c.thrPending = false

/-- The transmitter's invariant reads only the transmitter's half. -/
theorem Channel.transmitterOk_txView {c : Channel} : c.txView.TransmitterOk ↔ c.TransmitterOk := by
  obtain ⟨h5, h6⟩ := txFlags_getLsbD c.lsr
  exact ⟨fun h => ⟨h.busy, h.bits, h.queued, h.noQueue, h5.symm.trans h.thre, h6.symm.trans h.temt⟩,
    fun h => ⟨h.busy, h.bits, h.queued, h.noQueue, h5.trans h.thre, h6.trans h.temt⟩⟩

theorem Channel.TransmitterOk.of_txView {c c' : Channel} (e : c'.txView = c.txView) (h : c.TransmitterOk) :
    c'.TransmitterOk :=
  transmitterOk_txView.mp (e ▸ transmitterOk_txView.mpr h)

namespace Channel.TsrOk
variable {c : Channel} (h : c.TsrOk)
include h

/-- The holding register's emptiness (R903) where a byte waits only behind a busy TSR. -/
theorem holdingEmpty_eq : c.holdingEmpty = (if c.fifoOn then decide (c.tx.count = 0) else !c.tsrBusy) := by
  unfold Channel.holdingEmpty
  split
  · rfl
  · have hq := h.queued
    cases hp : c.thrPending <;> simp_all

theorem transmitterEmpty_eq : c.transmitterEmpty =
    (if c.fifoOn then decide (c.tx.count = 0) && !c.tsrBusy else !c.tsrBusy) := by
  unfold Channel.transmitterEmpty
  rw [h.holdingEmpty_eq]
  cases c.fifoOn <;> rfl

/-- The flags of R903 complete the transmitter's invariant. -/
theorem transmitterOk_lsr : ({ c with lsr := c.lsrWithTxFlags } : Channel).TransmitterOk where
  busy := h.busy
  bits := h.bits
  queued := h.queued
  noQueue := h.noQueue
  thre := (setBit_tx_bits ..).1.trans h.holdingEmpty_eq
  temt := (setBit_tx_bits ..).2.1.trans h.transmitterEmpty_eq

end Channel.TsrOk

theorem updateTxFlags_transmitterOk {k : Call} (h : k.ch.TsrOk) : (updateTxFlags k).ch.TransmitterOk :=
  h.transmitterOk_lsr.of_txView (updateTxFlags_txView k)

/-- A frame's length is a busy TSR's countdown (R904). -/
theorem txStart_tsrOk {c : Channel} (b : Byte) (hq : c.fifoOn = true → c.thrPending = false) :
    (txStart b c).TsrOk where
  busy := by
    have := (frameBits_range c.lcr).1
    simp only [txStart_tsrBusy, txStart_txBits]
    exact (decide_eq_true (by omega)).symm
  bits := (frameBits_range c.lcr).2
  queued _ := rfl
  noQueue := hq

theorem txStartFromFifo_tsrOk {c : Channel} (h : c.TsrOk) : (txStartFromFifo c).TsrOk := by
  unfold txStartFromFifo
  split
  · exact txStart_tsrOk _ h.noQueue
  · exact h

theorem startOrWait_tsrOk {c : Channel} (v : Byte) (hf : c.fifoOn = false) (h : c.TsrOk) :
    (startOrWait v c).TsrOk := by
  have hq : c.fifoOn = true → c.thrPending = false := h.noQueue
  unfold startOrWait
  split
  · next hb => exact ⟨h.busy, h.bits, fun _ => hb, fun hf' => absurd (hf.symm.trans hf') Bool.false_ne_true⟩
  · exact txStart_tsrOk v hq

theorem queueTx_tsrOk {c : Channel} (v : Byte) (h : c.TsrOk) : (queueTx v c).TsrOk := by
  unfold queueTx
  split
  · exact ⟨h.busy, h.bits, h.queued, h.noQueue⟩
  · exact h

theorem startIfIdle_tsrOk {c : Channel} (h : c.TsrOk) : (startIfIdle c).TsrOk := by
  unfold startIfIdle
  split
  · exact h
  · exact txStartFromFifo_tsrOk h

/-- Loading the next byte into an idle TSR. -/
theorem loadNext_tsrOk {c : Channel} (hq : c.fifoOn = true → c.thrPending = false) :
    (loadNext { c with tsrBusy := false, txBits := 0 }).TsrOk := by
  unfold loadNext
  split
  · next hf => exact txStartFromFifo_tsrOk ⟨rfl, Nat.zero_le _, fun hp =>
      absurd ((hq hf).symm.trans hp) Bool.false_ne_true, hq⟩
  · split
    · exact txStart_tsrOk _ fun _ => rfl
    · next hp => exact ⟨rfl, Nat.zero_le _, fun hp' => absurd hp' hp, hq⟩

/-- `TxComplete` needs of the state before only that no byte waits outside the FIFO in its discipline. -/
theorem txComplete_transmitterOk {k : Call} (hq : k.ch.fifoOn = true → k.ch.thrPending = false) :
    (txComplete k).ch.TransmitterOk := by
  rw [txComplete_eq]
  exact updateTxFlags_transmitterOk (loadNext_tsrOk hq)

theorem txWriteUnbuf_transmitterOk {k : Call} (v : Byte) (hf : k.ch.fifoOn = false) (h : k.ch.TransmitterOk) :
    (txWriteUnbuf v k).ch.TransmitterOk := by
  rw [txWriteUnbuf_eq]
  exact updateTxFlags_transmitterOk (startOrWait_tsrOk v hf ⟨h.busy, h.bits, h.queued, h.noQueue⟩)

theorem txWriteFifo_transmitterOk {k : Call} (v : Byte) (h : k.ch.TransmitterOk) :
    (txWriteFifo v k).ch.TransmitterOk := by
  rw [txWriteFifo_eq]
  exact updateTxFlags_transmitterOk
    (startIfIdle_tsrOk (queueTx_tsrOk v ⟨h.busy, h.bits, h.queued, h.noQueue⟩))

theorem txServiceStep_transmitterOk {k : Call} (h : k.ch.TransmitterOk) :
    (txServiceStep k).ch.TransmitterOk := by
  unfold txServiceStep
  split
  · next hb =>
    dsimp only
    split
    · exact txComplete_transmitterOk h.noQueue
    · next hbits =>
      have hleft : 0 < k.ch.txBits - 1 := Nat.pos_of_ne_zero hbits
      exact ⟨hb.trans (decide_eq_true hleft).symm, (Nat.sub_le ..).trans h.bits, h.queued, h.noQueue,
        h.thre, h.temt⟩
  · exact h

/-- After a flush nothing waits, whatever FCR now holds (R914). -/
theorem txFlush_transmitterOk {k : Call} (f : Byte) (h : k.ch.TransmitterOk) :
    (txFlush (storeFcr f k)).ch.TransmitterOk := by
  unfold txFlush
  exact updateTxFlags_transmitterOk ⟨h.busy, h.bits, (fun hp => nomatch hp), fun _ => rfl⟩

theorem Channel.TransmitterOk.fcr {c : Channel} {f : Byte} (hf : f.getLsbD 0 = c.fcr.getLsbD 0)
    (h : c.TransmitterOk) : ({ c with fcr := f } : Channel).TransmitterOk := by
  have he : ({ c with fcr := f } : Channel).fifoOn = c.fifoOn := c.fifoOn_fcr hf
  exact ⟨h.busy, h.bits, h.queued, he ▸ h.noQueue, he ▸ h.thre, he ▸ h.temt⟩

/-- After a reset the discipline is the unbuffered one, with FCR 0 or no FIFO at all (R1300). -/
@[simp] theorem resetRegisters_fifoOn (c : Channel) : (resetRegisters c).fifoOn = false := by
  cases hv : c.cfg.variant.fifoCap <;> simp [Channel.fifoOn, resetRegisters, hv]

@[simp] theorem resetRegisters_lsr (c : Channel) : (resetRegisters c).lsr = 0x60 := rfl
@[simp] theorem resetRegisters_tsrBusy (c : Channel) : (resetRegisters c).tsrBusy = false := rfl

theorem resetRegisters_transmitterOk (c : Channel) : (resetRegisters c).TransmitterOk where
  busy := rfl
  bits := Nat.zero_le _
  queued hp := nomatch hp
  noQueue _ := rfl
  thre := by simp
  temt := by simp

theorem keptByTransmitter_transmitterOk : KeptByTransmitter Channel.TransmitterOk where
  view := .of_txView
  writeFifo v _ _ := txWriteFifo_transmitterOk v
  writeUnbuf v _ := txWriteUnbuf_transmitterOk v
  complete _ h := txComplete_transmitterOk h.noQueue
  serviceStep _ := txServiceStep_transmitterOk
  flush f _ := txFlush_transmitterOk f
  fcr _ _ := .fcr
  icr _ _ _ _ h := ⟨h.busy, h.bits, h.queued, h.noQueue, h.thre, h.temt⟩
  reset c _ := resetRegisters_transmitterOk c

/-- Settles O46: every procedure of the transmitter ends with `UpdateTxFlags` or leaves the flags' inputs. -/
theorem stepsKeepTheTransmitter : Obligations.StepsKeepTheTransmitter := by
  unfold Obligations.StepsKeepTheTransmitter
  exact fun s t => keptByTransmitter_transmitterOk.step

end Sys2Proof.Machine
end

section
/-! The FIFOs' invariants (R126, R127): every push and pop stands behind its caller's guard. -/

namespace Sys2Proof.Machine

/-- The transmit FIFO's part of `FifosOk`. -/
def Channel.TxFifoOk (c : Channel) : Prop := c.tx.Ok c.depth

/-- The receive FIFO's part of `FifosOk`. -/
def Channel.RxFifoOk (c : Channel) : Prop := c.rx.Ok c.depth

theorem Channel.fifosOk_iff {c : Channel} : c.FifosOk ↔ c.RxFifoOk ∧ c.TxFifoOk :=
  ⟨fun h => ⟨h.rx, h.tx⟩, fun h => ⟨h.1, h.2⟩⟩

theorem Channel.TxFifoOk.of_txView {c c' : Channel} (e : c'.txView = c.txView) (h : c.TxFifoOk) :
    c'.TxFifoOk :=
  have hv : c.txView.TxFifoOk := h
  have hv' : c'.txView.TxFifoOk := e ▸ hv
  hv'

theorem Channel.RxFifoOk.of_rxView {c c' : Channel} (e : c'.rxView = c.rxView) (h : c.RxFifoOk) :
    c'.RxFifoOk :=
  have hv : c.rxView.RxFifoOk := h
  have hv' : c'.rxView.RxFifoOk := e ▸ hv
  hv'

section Transmit
variable {c : Channel} {k : Call} (v : Byte)

theorem updateTxFlags_txFifoOk (h : k.ch.TxFifoOk) : (updateTxFlags k).ch.TxFifoOk :=
  .of_txView (updateTxFlags_txView k) h

theorem txStartFromFifo_txFifoOk (h : c.TxFifoOk) : (txStartFromFifo c).TxFifoOk := by
  unfold txStartFromFifo
  split
  · next hc => exact Fifo.Ok.pop h hc
  · exact h

theorem startOrWait_txFifoOk (h : c.TxFifoOk) : (startOrWait v c).TxFifoOk := by
  unfold startOrWait
  split <;> exact h

theorem queueTx_txFifoOk (h : c.TxFifoOk) : (queueTx v c).TxFifoOk := by
  unfold queueTx
  split
  · next hc => exact Fifo.Ok.push v h hc
  · exact h

theorem startIfIdle_txFifoOk (h : c.TxFifoOk) : (startIfIdle c).TxFifoOk := by
  unfold startIfIdle
  split
  · exact h
  · exact txStartFromFifo_txFifoOk h

theorem loadNext_txFifoOk (h : c.TxFifoOk) : (loadNext c).TxFifoOk := by
  unfold loadNext
  split
  · exact txStartFromFifo_txFifoOk h
  · split <;> exact h

theorem txWriteFifo_txFifoOk (h : k.ch.TxFifoOk) : (txWriteFifo v k).ch.TxFifoOk := by
  rw [txWriteFifo_eq]
  exact updateTxFlags_txFifoOk (startIfIdle_txFifoOk (queueTx_txFifoOk v h))

theorem txWriteUnbuf_txFifoOk (h : k.ch.TxFifoOk) : (txWriteUnbuf v k).ch.TxFifoOk := by
  rw [txWriteUnbuf_eq]
  exact updateTxFlags_txFifoOk (startOrWait_txFifoOk v h)

theorem txComplete_txFifoOk (h : k.ch.TxFifoOk) : (txComplete k).ch.TxFifoOk := by
  rw [txComplete_eq]
  exact updateTxFlags_txFifoOk (loadNext_txFifoOk h)

theorem txServiceStep_txFifoOk (h : k.ch.TxFifoOk) : (txServiceStep k).ch.TxFifoOk := by
  unfold txServiceStep
  split
  · dsimp only
    split
    · exact txComplete_txFifoOk h
    · exact h
  · exact h

theorem txFlush_txFifoOk (h : k.ch.TxFifoOk) : (txFlush k).ch.TxFifoOk := by
  unfold txFlush
  exact updateTxFlags_txFifoOk (Fifo.Ok.flush h)

/-- A reset empties the FIFOs a variant has (R1300). -/
theorem resetRegisters_tx (c : Channel) :
    (resetRegisters c).tx = if c.cfg.variant.fifoCap then ⟨[], 0, 0, 0⟩ else c.tx := rfl

theorem resetRegisters_txFifoOk (h : c.TxFifoOk) : (resetRegisters c).TxFifoOk := by
  rw [Channel.TxFifoOk, resetRegisters_tx]
  split
  · exact Fifo.Ok.empty _
  · exact h

end Transmit

theorem keptByTransmitter_txFifoOk : KeptByTransmitter Channel.TxFifoOk where
  view := .of_txView
  writeFifo v _ _ := txWriteFifo_txFifoOk v
  writeUnbuf v _ _ := txWriteUnbuf_txFifoOk v
  complete _ := txComplete_txFifoOk
  serviceStep _ := txServiceStep_txFifoOk
  flush _ _ h := txFlush_txFifoOk h
  fcr _ _ _ h := h
  icr _ _ _ _ h := h
  reset _ := resetRegisters_txFifoOk

section Receive
variable {c : Channel} {k : Call}

theorem rxAcceptFifo_rxFifoOk (b : Byte) (h : k.ch.RxFifoOk) : (rxAcceptFifo b k).ch.RxFifoOk := by
  unfold rxAcceptFifo
  split
  · exact h
  · next hfull =>
    have hlt : k.ch.rx.count < k.ch.depth := Nat.lt_of_le_of_ne h.count hfull
    dsimp only
    split <;> exact Fifo.Ok.push b h hlt

theorem timeoutStep_rxFifoOk (h : k.ch.RxFifoOk) : (timeoutStep k).ch.RxFifoOk := by
  rw [timeoutStep_ch]
  split
  · split <;> exact h
  · exact h

theorem rxServiceStep_rxFifoOk (h : k.ch.RxFifoOk) : (rxServiceStep k).ch.RxFifoOk :=
  rxServiceStep_keeps .of_rxView (fun b _ _ => rxAcceptFifo_rxFifoOk b) k h

theorem popRx_rxFifoOk (h : c.RxFifoOk) : (popRx c).RxFifoOk := by
  unfold popRx
  split
  · next hc => exact Fifo.Ok.pop h hc
  · exact h

theorem settleRx_rxFifoOk (h : c.RxFifoOk) : (settleRx c).RxFifoOk := by
  unfold settleRx
  split <;> exact h

theorem rxPop_rxFifoOk (h : k.ch.RxFifoOk) : (rxPop k).ch.RxFifoOk := by
  have hp := popRx_rxFifoOk h
  exact settleRx_rxFifoOk (c := { popRx k.ch with pending := (popRx k.ch).pendingAfterPop }) hp

theorem resetRegisters_rx (c : Channel) :
    (resetRegisters c).rx = if c.cfg.variant.fifoCap then ⟨[], 0, 0, 0⟩ else c.rx := rfl

theorem resetRegisters_rxFifoOk (h : c.RxFifoOk) : (resetRegisters c).RxFifoOk := by
  rw [Channel.RxFifoOk, resetRegisters_rx]
  split
  · exact Fifo.Ok.empty _
  · exact h

end Receive

theorem keptByReceiver_rxFifoOk : KeptByReceiver Channel.RxFifoOk where
  view := .of_rxView
  pop _ _ := rxPop_rxFifoOk
  tick := tickCall_keeps (fun _ => timeoutStep_rxFifoOk) (fun _ => rxServiceStep_rxFifoOk)
    (fun k => .of_rxView (txServiceStep_rxView k)) (fun _ _ h => h)
  reprogram _ h := h
  flush _ _ h := Fifo.Ok.flush h
  fcr _ _ _ h := h
  icr _ _ _ h := h
  reset _ := resetRegisters_rxFifoOk

/-- Settles O47: the two FIFOs are invariants of the two halves. -/
theorem stepsKeepTheFifos : Obligations.StepsKeepTheFifos := by
  unfold Obligations.StepsKeepTheFifos
  intro s t hs h c hc
  have hrx := keptByReceiver_rxFifoOk.step (fun c hc => (Channel.fifosOk_iff.mp (hs c hc)).1) h
  have htx := keptByTransmitter_txFifoOk.step (fun c hc => (Channel.fifosOk_iff.mp (hs c hc)).2) h
  exact Channel.fifosOk_iff.mpr ⟨hrx c hc, htx c hc⟩

end Sys2Proof.Machine
end

section
/-! The countdowns' invariants (R131, R916): the baud countdown's range, and apart from it the timeout's range and
when it may be armed. Both rest on the ranges of the derived quantities. -/

namespace Sys2Proof.Machine

/-- The divisor in use is 1 to 65535 (R1001). -/
theorem Channel.divisorEff_range (c : Channel) : 1 ≤ c.divisorEff ∧ c.divisorEff ≤ 65535 := by
  have := c.divisor.isLt
  unfold Channel.divisorEff
  split <;> omega

/-- The baud constant is 1 to 65535 * 255 / 8 (R1004). -/
theorem Channel.baudConst_range (c : Channel) : 1 ≤ c.baudConst ∧ c.baudConst ≤ 2088928 := by
  obtain ⟨hd1, hd2⟩ := c.divisorEff_range
  obtain ⟨hp1, hp2⟩ := prescaleEighths_range c.cpr
  unfold Channel.baudConst
  split
  · have hlow : 1 * 8 ≤ c.divisorEff * prescaleEighths c.cpr := Nat.mul_le_mul hd1 hp1
    have hhigh : c.divisorEff * prescaleEighths c.cpr ≤ 65535 * 255 := Nat.mul_le_mul hd2 hp2
    omega
  · omega

/-- The timeout's length is at least 1 tick and at most 4 * 12 * 2088928 (R1008). -/
theorem Channel.timeoutTicks_range (c : Channel) : 1 ≤ c.timeoutTicks ∧ c.timeoutTicks ≤ 100268544 := by
  obtain ⟨hf1, hf2⟩ := frameBits_range c.lcr
  obtain ⟨hb1, hb2⟩ := c.baudConst_range
  have hlow : 4 * 7 * 1 ≤ c.timeoutTicks := Nat.mul_le_mul (Nat.mul_le_mul_left 4 hf1) hb1
  have hhigh : c.timeoutTicks ≤ 4 * 12 * 2088928 := Nat.mul_le_mul (Nat.mul_le_mul_left 4 hf2) hb2
  omega

/-- The baud countdown's part of `TimersOk`. -/
def Channel.BaudOk (c : Channel) : Prop := 1 ≤ c.baudCnt ∧ c.baudCnt ≤ 2088928

/-- The timeout's part of `TimersOk`. -/
structure Channel.TimeoutOk (c : Channel) : Prop where
  toHigh    : c.toCnt ≤ 100268544
  armedFifo : c.toArmed = true → c.fifoOn = true ∧ 0 < c.rx.count
  armedLeft : c.toArmed = true → 0 < c.toCnt
  disarmed  : c.toArmed = false → c.toCnt = 0

theorem Channel.timersOk_iff {c : Channel} : c.TimersOk ↔ c.BaudOk ∧ c.TimeoutOk :=
  ⟨fun h => ⟨⟨h.baudLow, h.baudHigh⟩, h.toHigh, h.armedFifo, h.armedLeft, h.disarmed⟩,
    fun ⟨hb, ht⟩ => ⟨hb.1, hb.2, ht.toHigh, ht.armedFifo, ht.armedLeft, ht.disarmed⟩⟩

theorem Channel.BaudOk.of_rxView {c c' : Channel} (e : c'.rxView = c.rxView) (h : c.BaudOk) : c'.BaudOk :=
  have hv : c.rxView.BaudOk := h
  have hv' : c'.rxView.BaudOk := e ▸ hv
  hv'

theorem timeoutStep_baudCnt (k : Call) : (timeoutStep k).ch.baudCnt = k.ch.baudCnt := by
  rw [timeoutStep_ch]
  split
  · split <;> rfl
  · rfl

@[simp] theorem popRx_baudCnt (c : Channel) : (popRx c).baudCnt = c.baudCnt := by
  unfold popRx
  split <;> rfl

@[simp] theorem settleRx_baudCnt (c : Channel) : (settleRx c).baudCnt = c.baudCnt := by
  unfold settleRx
  split <;> rfl

theorem rxPop_baudCnt (k : Call) : (rxPop k).ch.baudCnt = k.ch.baudCnt :=
  (settleRx_baudCnt _).trans (popRx_baudCnt k.ch)

theorem serviceStep_baudOk (k : Call) : (serviceStep k).ch.BaudOk := by
  unfold serviceStep
  exact Channel.baudConst_range _

/-- A tick counts down to 1 at least, or reloads (R1005, R1006). -/
theorem tickCall_baudOk {k : Call} (h : k.ch.BaudOk) : (tickCall k).ch.BaudOk := by
  have ht := timeoutStep_baudCnt k
  obtain ⟨_, hhigh⟩ := h
  unfold tickCall
  dsimp only
  split
  · exact serviceStep_baudOk _
  · next hne =>
    have hlow : 1 ≤ (timeoutStep k).ch.baudCnt - 1 := Nat.pos_of_ne_zero hne
    have hle : (timeoutStep k).ch.baudCnt - 1 ≤ 2088928 := by omega
    exact ⟨hlow, hle⟩

theorem keptByReceiver_baudOk : KeptByReceiver Channel.BaudOk where
  view := .of_rxView
  pop k _ h := by rwa [Channel.BaudOk, rxPop_baudCnt]
  tick _ := tickCall_baudOk
  reprogram c _ := c.baudConst_range
  flush _ _ h := h
  fcr _ _ _ h := h
  icr _ _ _ h := h
  reset _ _ := ⟨Nat.le_refl 1, Nat.le_of_ble_eq_true rfl⟩

theorem Channel.TimeoutOk.of_rxView {c c' : Channel} (e : c'.rxView = c.rxView) (h : c.TimeoutOk) :
    c'.TimeoutOk :=
  have hv : c.rxView.TimeoutOk := ⟨h.toHigh, h.armedFifo, h.armedLeft, h.disarmed⟩
  have hv' : c'.rxView.TimeoutOk := e ▸ hv
  ⟨hv'.toHigh, hv'.armedFifo, hv'.armedLeft, hv'.disarmed⟩

theorem armTimeout_timeoutOk {c : Channel} (hf : c.fifoOn = true) (hc : 0 < c.rx.count) :
    (armTimeout c).TimeoutOk where
  toHigh := c.timeoutTicks_range.2
  armedFifo _ := ⟨hf, hc⟩
  armedLeft _ := c.timeoutTicks_range.1
  disarmed h := nomatch h

theorem Channel.TimeoutOk.of_disarmed {c : Channel} (ha : c.toArmed = false) (hc : c.toCnt = 0) :
    c.TimeoutOk where
  toHigh := hc ▸ Nat.zero_le _
  armedFifo h := absurd (ha.symm.trans h) Bool.false_ne_true
  armedLeft h := absurd (ha.symm.trans h) Bool.false_ne_true
  disarmed _ := hc

theorem timeoutStep_timeoutOk {k : Call} (h : k.ch.TimeoutOk) : (timeoutStep k).ch.TimeoutOk := by
  rw [timeoutStep_ch]
  split
  · next harm =>
    obtain ⟨ha, _⟩ := Bool.and_eq_true _ _ ▸ harm
    split
    · next h0 => exact .of_disarmed rfl h0
    · next h0 =>
      exact ⟨(Nat.sub_le ..).trans h.toHigh, h.armedFifo, fun _ => Nat.pos_of_ne_zero h0,
        fun hf => absurd (ha.symm.trans hf) (by decide)⟩
  · exact h

theorem rxAcceptFifo_timeoutOk {k : Call} (b : Byte) (hf : k.ch.fifoOn = true) (h : k.ch.TimeoutOk) :
    (rxAcceptFifo b k).ch.TimeoutOk := by
  unfold rxAcceptFifo
  split
  · exact ⟨h.toHigh, h.armedFifo, h.armedLeft, h.disarmed⟩
  · have ha := armTimeout_timeoutOk (c := { k.ch with
      rx := k.ch.rx.push k.ch.depth b, lsr := setBit k.ch.lsr 0 true }) hf (Nat.succ_pos _)
    dsimp only
    split
    · exact .of_rxView (trigger_rxView ..) ha
    · exact ha

theorem settleRx_timeoutOk {c : Channel} (hf : c.fifoOn = true) : (settleRx c).TimeoutOk := by
  unfold settleRx
  split
  · exact .of_disarmed rfl rfl
  · next hc => exact armTimeout_timeoutOk hf (Nat.pos_of_ne_zero hc)

theorem popRx_fifoOn (c : Channel) : (popRx c).fifoOn = c.fifoOn := by
  unfold popRx
  split <;> rfl

/-- A FIFO read arms or disarms the timeout, whatever it was before (R912). -/
theorem rxPop_timeoutOk {k : Call} (hf : k.ch.fifoOn = true) : (rxPop k).ch.TimeoutOk := by
  have hf' : (popRx k.ch).fifoOn = true := (popRx_fifoOn k.ch).trans hf
  have hs := settleRx_timeoutOk (c := { popRx k.ch with pending := (popRx k.ch).pendingAfterPop }) hf'
  exact ⟨hs.toHigh, hs.armedFifo, hs.armedLeft, hs.disarmed⟩

theorem Channel.TimeoutOk.fcr {c : Channel} {f : Byte} (hf : f.getLsbD 0 = c.fcr.getLsbD 0)
    (h : c.TimeoutOk) : ({ c with fcr := f } : Channel).TimeoutOk := by
  have he : ({ c with fcr := f } : Channel).fifoOn = c.fifoOn := c.fifoOn_fcr hf
  exact ⟨h.toHigh, fun ha => he ▸ h.armedFifo ha, h.armedLeft, h.disarmed⟩

theorem keptByReceiver_timeoutOk : KeptByReceiver Channel.TimeoutOk where
  view := .of_rxView
  pop _ hf _ := rxPop_timeoutOk hf
  tick := tickCall_keeps (fun _ => timeoutStep_timeoutOk)
    (rxServiceStep_keeps .of_rxView fun b _ hf => rxAcceptFifo_timeoutOk b hf)
    (fun k => .of_rxView (txServiceStep_rxView k))
    (fun _ _ h => ⟨h.toHigh, h.armedFifo, h.armedLeft, h.disarmed⟩)
  reprogram _ h := ⟨h.toHigh, h.armedFifo, h.armedLeft, h.disarmed⟩
  flush _ _ _ := .of_disarmed rfl rfl
  fcr _ _ := .fcr
  icr _ _ _ h := ⟨h.toHigh, h.armedFifo, h.armedLeft, h.disarmed⟩
  reset _ _ := .of_disarmed rfl rfl

/-- Settles O48: the timeout is armed only by a byte put into the FIFO or left there by a read, and a change of
the discipline disarms it. -/
theorem stepsKeepTheTimers : Obligations.StepsKeepTheTimers := by
  unfold Obligations.StepsKeepTheTimers
  intro s t hs h c hc
  have hbaud := keptByReceiver_baudOk.step (fun c hc => (Channel.timersOk_iff.mp (hs c hc)).1) h
  have htimeout := keptByReceiver_timeoutOk.step (fun c hc => (Channel.timersOk_iff.mp (hs c hc)).2) h
  exact Channel.timersOk_iff.mpr ⟨hbaud c hc, htimeout c hc⟩

end Sys2Proof.Machine
end

section
/-! The parameters' invariant (R118, R121, R129): only an ICR write and a reset touch the ICR, and only a reset the
latches. -/

namespace Sys2Proof.Machine

namespace Channel.ParametersOk
variable {c c' : Channel}

/-- The invariant reads only the configuration, the ICR and the latches. -/
theorem congr (h : c.ParametersOk) (hcfg : c'.cfg = c.cfg) (hicr : c'.icr = c.icr)
    (hlatches : c'.latches = c.latches) : c'.ParametersOk := by
  obtain ⟨hwf, h1, h2, h3, h4, hl⟩ := h
  constructor <;> simpa only [hcfg, hicr, hlatches]

theorem of_txView (e : c'.txView = c.txView) (h : c.ParametersOk) : c'.ParametersOk :=
  have hv : c.txView.ParametersOk := h.congr rfl rfl rfl
  have hv' : c'.txView.ParametersOk := e ▸ hv
  hv'.congr rfl rfl rfl

theorem of_rxView (e : c'.rxView = c.rxView) (h : c.ParametersOk) : c'.ParametersOk :=
  have hv : c.rxView.ParametersOk := h.congr rfl rfl rfl
  have hv' : c'.rxView.ParametersOk := e ▸ hv
  hv'.congr rfl rfl rfl

/-- A write outside the identification block keeps the block (R121). -/
theorem icr_write {n : Nat} (b : Byte) (hn : isIdIndex n = false) (h : c.ParametersOk) :
    ({ c with icr := Memory.write c.icr n b } : Channel).ParametersOk := by
  have hread (a : Nat) (ha : isIdIndex a = true) :
      Memory.read (Memory.write c.icr n b) a = Memory.read c.icr a :=
    Memory.read_write_other b fun he => absurd (ha.symm.trans (he ▸ hn)) (by decide)
  exact ⟨Memory.wf_write n b h.icrWf, fun hx => (hread 0x08 rfl).trans (h.id1 hx),
    fun hx => (hread 0x09 rfl).trans (h.id2 hx), fun hx => (hread 0x0A rfl).trans (h.id3 hx),
    fun hx => (hread 0x0B rfl).trans (h.rev hx), h.latches⟩

end Channel.ParametersOk

theorem resetRegisters_icr (c : Channel) :
    (resetRegisters c).icr = if c.cfg.variant.x950 then initialIcr c.cfg else c.icr := rfl

theorem resetRegisters_icr_of_x950 {c : Channel} (hx : c.cfg.variant.x950 = true) :
    (resetRegisters c).icr = initialIcr c.cfg := if_pos hx

/-- A reset loads the parameters (R1300). -/
theorem resetRegisters_parametersOk {c : Channel} (h : c.ParametersOk) : (resetRegisters c).ParametersOk := by
  have hread (hx : c.cfg.variant.x950 = true) (a : Nat) :
      Memory.read (resetRegisters c).icr a = Memory.read (initialIcr c.cfg) a := by
    rw [resetRegisters_icr_of_x950 hx]
  refine ⟨?_, fun hx => ?_, fun hx => ?_, fun hx => ?_, fun hx => ?_, rfl⟩
  · rw [resetRegisters_icr]
    split
    · exact Memory.wf_initialIcr c.cfg
    · exact h.icrWf
  all_goals
    rw [hread hx, Memory.read_initialIcr]
    rfl

theorem keptByTransmitter_parametersOk : KeptByTransmitter Channel.ParametersOk where
  view := .of_txView
  writeFifo v k _ := .of_rxView (txWriteFifo_rxView k v)
  writeUnbuf v k _ := .of_rxView (txWriteUnbuf_rxView k v)
  complete k := .of_rxView (txComplete_rxView k)
  serviceStep k := .of_rxView (txServiceStep_rxView k)
  flush f k h := .of_rxView (txFlush_rxView (storeFcr f k)) (h.congr rfl rfl rfl)
  fcr _ _ _ h := h.congr rfl rfl rfl
  icr _ b _ hn := .icr_write b hn
  reset _ := resetRegisters_parametersOk

/-- Settles O50: no operation but a reset writes the identification block or the latches. -/
theorem stepsKeepTheParameters : Obligations.StepsKeepTheParameters := by
  unfold Obligations.StepsKeepTheParameters
  exact fun s t => keptByTransmitter_parametersOk.step

/-- The line bits are the four modem inputs in order, above the deltas (R112). -/
theorem msr_of_modemLines (m : ModemLines) :
    (m.bits ++ 0x0#4).getLsbD 7 = m.dcd ∧ (m.bits ++ 0x0#4).getLsbD 6 = m.ri ∧
    (m.bits ++ 0x0#4).getLsbD 5 = m.dsr ∧ (m.bits ++ 0x0#4).getLsbD 4 = m.cts ∧
    (m.bits ++ 0x0#4).extractLsb' 0 4 = 0x0#4 := by
  obtain ⟨dcd, ri, dsr, cts⟩ := m
  revert dcd ri dsr cts
  decide

/-- FCR is 0 after a reset: a variant without FIFOs had it at 0 (R1300, R108). -/
theorem resetRegisters_fcr {c : Channel} (h : c.FixedOk) : (resetRegisters c).fcr = 0x00 := by
  cases hv : c.cfg.variant.fifoCap
  · exact (if_neg (by simp [hv])).trans (h.noFifo hv)
  · exact if_pos hv

/-- The bank is closed after a reset: a variant without the bank never opened it (R1300, R115). -/
theorem resetRegisters_bank650 {c : Channel} (h : c.FixedOk) : (resetRegisters c).bank650 = false := by
  cases hv : c.cfg.variant.hasBank650
  · exact (if_neg (by simp [hv])).trans (h.noBank hv)
  · exact if_pos hv

/-- The ICR after a reset, entry by entry (R1300). -/
theorem Memory.read_initialIcr_entries (g : ChannelConfig) :
    Memory.read (initialIcr g) 0x01 = 0x20 ∧
    Memory.read (initialIcr g) 0x03 = (if g.clockSelect then g.cksResetTrue else g.cksResetFalse) ∧
    Memory.read (initialIcr g) 0x08 = g.id1 ∧ Memory.read (initialIcr g) 0x09 = g.id2 ∧
    Memory.read (initialIcr g) 0x0A = g.id3 ∧ Memory.read (initialIcr g) 0x0B = g.rev ∧
    ∀ i, i ∉ [0x01, 0x03, 0x08, 0x09, 0x0A, 0x0B] → Memory.read (initialIcr g) i = 0x00 := by
  refine ⟨?_, ?_, ?_, ?_, ?_, ?_, fun i hi => ?_⟩
  case refine_7 =>
    rw [Memory.read_initialIcr]
    simp_all
  all_goals
    rw [Memory.read_initialIcr]
    rfl

/-- After a reset nothing is pending or enabled: no source is identified and the level is false (R1305). -/
theorem resetRegisters_identified (c : Channel) : (resetRegisters c).identified.iirId = 0b0001 ∧
    (resetRegisters c).identified.intLine = false := by
  have hpending : (resetRegisters c).pending = 0 := rfl
  have hier : (resetRegisters c).ier = 0x00 := rfl
  rw [Channel.identified_iirId, Channel.identified_intLine, hpending, hier]
  decide

/-- The reset of the stand-alone channel with its one line call (R1305). -/
theorem onChannel_resetCall (s : State) : s.onChannel resetCall = { s with
    chan := (resetRegisters s.chan).identified
    events := s.events ++ [.interruptLine s.chan.cfg.handle false]
    result := none } := by
  have hline := (resetRegisters_identified s.chan).2
  rw [Channel.identified_intLine] at hline
  rw [← hline]
  rfl

/-- Settles O33: the reset routine assigns every element, and its one recomputation finds nothing pending. -/
theorem resetRestoresEveryElement : Obligations.ResetRestoresEveryElement := by
  unfold Obligations.ResetRestoresEveryElement
  intro s hfixed
  obtain ⟨hdcd, hri, hdsr, hcts, hdeltas⟩ := msr_of_modemLines s.chan.cfg.modemIn
  have hfcr := resetRegisters_fcr hfixed
  have hbank := resetRegisters_bank650 hfixed
  have hxbank (hv : s.chan.cfg.variant.hasBank650 = true) :
      (resetRegisters s.chan).efr = 0x00 ∧ (resetRegisters s.chan).xon1 = 0x00 := ⟨if_pos hv, if_pos hv⟩
  have hfifo (hv : s.chan.cfg.variant.fifoCap = true) :
      (resetRegisters s.chan).rx = ⟨[], 0, 0, 0⟩ ∧ (resetRegisters s.chan).tx = ⟨[], 0, 0, 0⟩ :=
    ⟨if_pos hv, if_pos hv⟩
  obtain ⟨hid, hline⟩ := resetRegisters_identified s.chan
  refine ⟨s.onChannel resetCall, rfl, ?_⟩
  rw [onChannel_resetCall]
  refine ⟨rfl, rfl, rfl, rfl, rfl, rfl, hid, hfcr, rfl, rfl, rfl, hdcd, hri, hdsr, hcts, hdeltas, rfl, rfl,
    rfl, hbank, hxbank, fun hx => ?_, rfl, hfifo, rfl, rfl, rfl, rfl, rfl, rfl, rfl, hline⟩
  have hicr : (resetRegisters s.chan).identified.icr = initialIcr s.chan.cfg :=
    resetRegisters_icr_of_x950 hx
  rw [hicr]
  exact Memory.read_initialIcr_entries s.chan.cfg

end Sys2Proof.Machine
end

section
/-! The derived quantities (R900, R901, R1001 to R1008) by the rules' own expressions. -/

namespace Sys2Proof.Machine

/-- `X950` is the capability of one variant (R101). -/
theorem variant_x950_iff {v : Variant} : v.x950 = true ↔ v = .V16950 := by
  cases v <;> decide

theorem Channel.fifoOn_iff (c : Channel) :
    c.fifoOn = true ↔ c.cfg.variant.fifoCap = true ∧ c.fcr.getLsbD 0 = true :=
  Bool.and_eq_true_iff

/-- The trigger level is the entry of R901's table that FCR[7:6] selects. -/
theorem Channel.trigLevel_table (c : Channel) :
    [1, 4, 8, 14][(c.fcr.extractLsb' 6 2).toNat]? = some c.trigLevel := by
  unfold Channel.trigLevel
  generalize c.fcr.extractLsb' 6 2 = sel
  revert sel
  decide

/-- The divisor as a number, high byte first (R114). -/
theorem Channel.divisor_toNat (c : Channel) : c.divisor.toNat = 256 * c.dlm.toNat + c.dll.toNat := by
  rw [Channel.divisor, BitVec.toNat_append, ← Nat.shiftLeft_add_eq_or_of_lt c.dll.isLt, Nat.shiftLeft_eq,
    Nat.mul_comm]

theorem Channel.prescaleOn_iff (c : Channel) :
    c.prescaleOn = true ↔ c.cfg.variant = .V16950 ∧ c.mcr.getLsbD 7 = true := by
  rw [Channel.prescaleOn, Bool.and_eq_true_iff, variant_x950_iff]

theorem Channel.baudConst_of_prescaleOn {c : Channel} (h : c.prescaleOn = true) :
    c.baudConst = c.divisorEff * prescaleEighths c.cpr / 8 := if_pos h

theorem Channel.baudConst_of_not_prescaleOn {c : Channel} (h : ¬c.prescaleOn = true) :
    c.baudConst = c.divisorEff := if_neg h

theorem Channel.rxDisabled_iff (c : Channel) :
    c.rxDisabled = true ↔ c.cfg.variant = .V16950 ∧ c.acr.getLsbD 0 = true := by
  rw [Channel.rxDisabled, Bool.and_eq_true_iff, variant_x950_iff]

theorem Channel.txDisabled_iff (c : Channel) :
    c.txDisabled = true ↔ c.cfg.variant = .V16950 ∧ c.acr.getLsbD 1 = true := by
  rw [Channel.txDisabled, Bool.and_eq_true_iff, variant_x950_iff]

/-- Settles O58, one lemma a quantity. -/
theorem derivedQuantitiesFollowTheirRules : Obligations.DerivedQuantitiesFollowTheirRules := by
  unfold Obligations.DerivedQuantitiesFollowTheirRules
  refine ⟨rfl, fun c => ⟨rfl, c.fifoOn_iff, c.trigLevel_table, ?_, ?_, ?_, rfl, c.rxDisabled_iff,
    c.txDisabled_iff⟩⟩
  · rw [Channel.divisorEff, c.divisor_toNat]
  · exact fun h => Channel.baudConst_of_prescaleOn (c.prescaleOn_iff.mpr h)
  · exact fun h => Channel.baudConst_of_not_prescaleOn (mt c.prescaleOn_iff.mp h)

end Sys2Proof.Machine
end

section
/-! The log of callbacks and the operations of one channel (R207, R1106). A procedure only appends to the log, and
what it appends, does and returns is decided by the channel alone. So what an access to a child does depends on no
other channel: the others show only in the callbacks made before. -/

namespace Sys2Proof.Machine

/-- The same call where the callbacks `es` were made before its own. -/
def Call.after (es : List Event) (k : Call) : Call := { k with events := es ++ k.events }

section After
variable (es : List Event) (k k' : Call) (v : Byte)

@[simp] theorem Call.after_ch : (k.after es).ch = k.ch := rfl
@[simp] theorem Call.after_result : (k.after es).result = k.result := rfl

@[simp] theorem Call.after_modify (f : Channel → Channel) :
    (k.after es).modify f = (k.modify f).after es := rfl

@[simp] theorem Call.after_emit (e : Event) : (k.after es).emit e = (k.emit e).after es := by
  simp only [Call.after, Call.emit, List.append_assoc]

@[simp] theorem Call.after_ret : (k.after es).ret v = (k.ret v).after es := rfl

/-- A procedure's condition is on the channel, which is the same after other callbacks, so only its branches
matter. -/
@[simp] theorem Call.ite_after (p : Prop) [Decidable p] :
    (if p then k.after es else k'.after es) = (if p then k else k').after es :=
  (apply_ite (Call.after es) p k k').symm

@[simp] theorem recompute_after : recompute (k.after es) = (recompute k).after es := by
  simp only [recompute, Call.after_modify, Call.after_emit, Call.after_ch]

@[simp] theorem trigger_after (src : BitVec 5) : trigger src (k.after es) = (trigger src k).after es := by
  simp only [trigger, Call.after_modify, recompute_after]

@[simp] theorem clear_after (src : BitVec 5) : clear src (k.after es) = (clear src k).after es := by
  simp only [clear, Call.after_modify, recompute_after]

@[simp] theorem updateTxFlags_after : updateTxFlags (k.after es) = (updateTxFlags k).after es := by
  simp only [updateTxFlags, Call.after_ch, Call.after_modify, trigger_after, Call.ite_after]

@[simp] theorem txWriteUnbuf_after : txWriteUnbuf v (k.after es) = (txWriteUnbuf v k).after es := by
  simp only [txWriteUnbuf, Call.after_modify, clear_after, updateTxFlags_after]

@[simp] theorem txWriteFifo_after : txWriteFifo v (k.after es) = (txWriteFifo v k).after es := by
  simp only [txWriteFifo, Call.after_modify, clear_after, updateTxFlags_after]

@[simp] theorem txComplete_after : txComplete (k.after es) = (txComplete k).after es := by
  simp only [txComplete_eq, Call.after_ch, Call.after_emit, Call.after_modify, updateTxFlags_after]

@[simp] theorem txServiceStep_after : txServiceStep (k.after es) = (txServiceStep k).after es := by
  simp only [txServiceStep, Call.after_ch, Call.after_modify, txComplete_after, Call.ite_after]

@[simp] theorem txFlush_after : txFlush (k.after es) = (txFlush k).after es := by
  simp only [txFlush, Call.after_modify, updateTxFlags_after]

@[simp] theorem rxAcceptUnbuf_after : rxAcceptUnbuf v (k.after es) = (rxAcceptUnbuf v k).after es := by
  simp only [rxAcceptUnbuf, Call.after_ch, Call.after_modify, trigger_after, Call.ite_after]

@[simp] theorem rxAcceptFifo_after : rxAcceptFifo v (k.after es) = (rxAcceptFifo v k).after es := by
  simp only [rxAcceptFifo, Call.after_ch, Call.after_modify, trigger_after, Call.ite_after]

@[simp] theorem rxAccept_after (a : Option Byte) : rxAccept a (k.after es) = (rxAccept a k).after es := by
  cases a with
  | none => rfl
  | some b =>
    simp only [rxAccept, Call.after_ch, rxAcceptFifo_after, rxAcceptUnbuf_after, Call.ite_after]

@[simp] theorem rxServiceStep_after : rxServiceStep (k.after es) = (rxServiceStep k).after es := by
  simp only [rxServiceStep, callRx, Call.after_ch, Call.after_emit, Call.after_modify, rxAccept_after]

@[simp] theorem rxPop_after : rxPop (k.after es) = (rxPop k).after es := by
  simp only [rxPop, Call.after_ch, Call.after_modify, recompute_after, Call.after_ret]

@[simp] theorem rxFlush_after : rxFlush (k.after es) = (rxFlush k).after es := rfl

@[simp] theorem timeoutStep_after : timeoutStep (k.after es) = (timeoutStep k).after es := by
  simp only [timeoutStep, Call.after_ch, Call.after_modify, trigger_after, Call.ite_after]

@[simp] theorem serviceStep_after : serviceStep (k.after es) = (serviceStep k).after es := by
  simp only [serviceStep, Call.after_ch, rxServiceStep_after, txServiceStep_after, Call.ite_after,
    Call.after_modify]

@[simp] theorem tickCall_after : tickCall (k.after es) = (tickCall k).after es := by
  simp only [tickCall, timeoutStep_after, Call.after_ch, Call.after_modify, serviceStep_after, Call.ite_after]

@[simp] theorem divisorReprogram_after :
    divisorReprogram (k.after es) = (divisorReprogram k).after es := by
  simp only [divisorReprogram, Call.after_ch, txComplete_after, Call.ite_after, Call.after_modify]

@[simp] theorem fcrFlushes_after (old : Bool) (d : Byte) :
    fcrFlushes old d (k.after es) = (fcrFlushes old d k).after es := by
  simp only [fcrFlushes, Call.after_ch, rxFlush_after, txFlush_after, Call.ite_after]

@[simp] theorem modemStatusRecompute_after :
    modemStatusRecompute (k.after es) = (modemStatusRecompute k).after es := by
  simp only [modemStatusRecompute, Call.after_ch, Call.after_modify, trigger_after, Call.ite_after]

@[simp] theorem resetCall_after : resetCall (k.after es) = (resetCall k).after es := by
  simp only [resetCall, Call.after_modify, recompute_after]

/-- Every operation of a channel only appends to the log, and decides by the channel alone. -/
theorem channelCall_after (i : Instr) : channelCall i (k.after es) = (channelCall i k).after es := by
  cases i with
  | rdRbrFifo => exact rxPop_after es k
  | tick => exact tickCall_after es k
  | reset => exact resetCall_after es k
  | rdRbr => simp only [channelCall, rdRbrCall, Call.after_modify, clear_after, Call.after_ch, Call.after_ret]
  | rdLsr => simp only [channelCall, rdLsrCall, Call.after_modify, clear_after, Call.after_ch, Call.after_ret]
  | rdMsr => simp only [channelCall, rdMsrCall, Call.after_modify, clear_after, Call.after_ch, Call.after_ret]
  | rdIir => simp only [channelCall, rdIirCall, clear_after, Call.after_ch, Call.ite_after, Call.after_ret]
  | wrDll d => simp only [channelCall, wrDllCall, Call.after_modify, divisorReprogram_after]
  | wrDlm d => simp only [channelCall, wrDlmCall, Call.after_modify, divisorReprogram_after]
  | wrThr d =>
    simp only [channelCall, wrThrCall, Call.after_ch, txWriteFifo_after, txWriteUnbuf_after, Call.ite_after]
  | wrIer d =>
    simp only [channelCall, wrIerCall, Call.after_ch, Call.after_modify, trigger_after, recompute_after,
      Call.ite_after]
  | wrFcr d =>
    simp only [channelCall, wrFcrCall, Call.after_ch, Call.after_modify, fcrFlushes_after, recompute_after,
      Call.ite_after]
  | wrMcr d => simp only [channelCall, wrMcrCall, Call.after_modify, modemStatusRecompute_after]
  | wrLsr d => simp only [channelCall, wrLsrCall, Call.after_modify, trigger_after, Call.ite_after]
  | wrMsr d => simp only [channelCall, wrMsrCall, Call.after_modify, trigger_after, Call.ite_after]
  | wrIcr d =>
    simp only [channelCall, wrIcrCall, Call.after_ch, Call.after_modify, resetCall_after, Call.ite_after]
  | _ => rfl

theorem busAccess_after (write : Bool) (off : Offset) (d : Byte) :
    busAccess write off d (k.after es) = (busAccess write off d k).after es :=
  channelCall_after es k _

end After

/-- A bus access begun after the callbacks `es` is the same access begun with an empty log, after `es`. -/
theorem busAccess_of_events (write : Bool) (off : Offset) (d : Byte) (c : Channel) (es : List Event) :
    busAccess write off d ⟨c, es, none⟩ = (busAccess write off d ⟨c, [], none⟩).after es := by
  rw [← busAccess_after, Call.after, List.append_nil]

/-- What a bus access to a child returns, and the child it leaves, are functions of the child before it. -/
theorem State.onSelected_busAccess (s : State) (ao : AggregateOffset) (write : Bool) (off : Offset) (d : Byte) :
    (s.onSelected ao (busAccess write off d)).result =
        (busAccess write off d ⟨s.comp.selected ao, [], none⟩).result ∧
    (s.onSelected ao (busAccess write off d)).comp.selected ao =
        (busAccess write off d ⟨s.comp.selected ao, [], none⟩).ch := by
  rw [State.onSelected_result, State.onSelected_comp, Composite.selected_replace, busAccess_of_events]
  exact ⟨rfl, rfl⟩

/-- Two bus accesses to the same child agree in the value returned and in the child they leave. -/
theorem State.onSelected_busAccess_congr {s s' : State} {ao : AggregateOffset}
    (h : s.comp.selected ao = s'.comp.selected ao) (write : Bool) (off : Offset) (d : Byte) :
    (s.onSelected ao (busAccess write off d)).result = (s'.onSelected ao (busAccess write off d)).result ∧
    (s.onSelected ao (busAccess write off d)).comp.selected ao =
      (s'.onSelected ao (busAccess write off d)).comp.selected ao := by
  obtain ⟨hr, hc⟩ := s.onSelected_busAccess ao write off d
  obtain ⟨hr', hc'⟩ := s'.onSelected_busAccess ao write off d
  rw [hr, hc, hr', hc', h]
  exact ⟨rfl, rfl⟩

/-- Settles O42: both accesses are bus accesses to the selected child. -/
theorem noOtherChannelInfluencesAChild : Obligations.NoOtherChannelInfluencesAChild := by
  unfold Obligations.NoOtherChannelInfluencesAChild
  rintro s s' ao d i (rfl | rfl) h
  · exact ⟨_, _, rfl, rfl, State.onSelected_busAccess_congr h false (localOf ao) 0x00⟩
  · exact ⟨_, _, rfl, rfl, State.onSelected_busAccess_congr h true (localOf ao) d⟩

end Sys2Proof.Machine
end

section
/-! The divisor's reprogramming (R202, R505, R507, R1004, R1011): the completion it can cause touches the transmitter
only, so the countdown is reloaded from the divisor just written. -/

namespace Sys2Proof.Machine

/-- Between two channels only the transmitter, its flags and the interrupt's identification differ: what the
completion of a byte may touch (R903, R907). -/
def Channel.OnlyTransmitter (c c' : Channel) : Prop :=
  c' = { c with
    tsrBusy := c'.tsrBusy, tsrByte := c'.tsrByte, txBits := c'.txBits, thrPending := c'.thrPending,
    tx := c'.tx, lsr := c'.lsr, pending := c'.pending, iirId := c'.iirId, intLine := c'.intLine }

theorem Channel.OnlyTransmitter.trans {c c' c'' : Channel} (h : c.OnlyTransmitter c')
    (h' : c'.OnlyTransmitter c'') : c.OnlyTransmitter c'' := by
  unfold Channel.OnlyTransmitter at h h' ⊢
  rw [h', h]

theorem updateTxFlags_onlyTransmitter (k : Call) : k.ch.OnlyTransmitter (updateTxFlags k).ch := by
  rw [updateTxFlags_ch]
  split <;> rfl

theorem txStartFromFifo_onlyTransmitter (c : Channel) : c.OnlyTransmitter (txStartFromFifo c) := by
  unfold txStartFromFifo
  split <;> rfl

theorem loadNext_onlyTransmitter (c : Channel) : c.OnlyTransmitter (loadNext c) := by
  unfold loadNext
  split
  · exact txStartFromFifo_onlyTransmitter c
  · split <;> rfl

/-- `TxComplete` touches the transmitter only (R907). -/
theorem txComplete_onlyTransmitter (k : Call) : k.ch.OnlyTransmitter (txComplete k).ch := by
  have hidle : k.ch.OnlyTransmitter { k.ch with tsrBusy := false, txBits := 0 } := rfl
  rw [txComplete_eq]
  exact (hidle.trans (loadNext_onlyTransmitter _)).trans (updateTxFlags_onlyTransmitter _)

/-- What `DivisorReprogram` can do (R1011): the transmitter's completion, then the countdown's reload. -/
theorem divisorReprogram_cases (k : Call) : ∃ c, k.ch.OnlyTransmitter c ∧
    (divisorReprogram k).ch = { c with baudCnt := c.baudConst } := by
  unfold divisorReprogram
  refine ⟨_, ?_, rfl⟩
  split
  · exact txComplete_onlyTransmitter k
  · rfl

/-- The divisor and the prescaler's switch are no part of the transmitter. -/
theorem Channel.OnlyTransmitter.divisor {c c' : Channel} (h : c.OnlyTransmitter c') :
    c'.dll = c.dll ∧ c'.dlm = c.dlm ∧ c'.prescaleOn = c.prescaleOn := by
  unfold Channel.OnlyTransmitter at h
  rw [h]
  exact ⟨rfl, rfl, rfl⟩

/-- After `DivisorReprogram` the divisor and the prescaler's switch are as before, and the countdown is loaded
(R1011). -/
theorem divisorReprogram_divisor (k : Call) :
    (divisorReprogram k).ch.dll = k.ch.dll ∧ (divisorReprogram k).ch.dlm = k.ch.dlm ∧
    (divisorReprogram k).ch.prescaleOn = k.ch.prescaleOn ∧
    (divisorReprogram k).ch.baudCnt = (divisorReprogram k).ch.baudConst := by
  obtain ⟨c, h, he⟩ := divisorReprogram_cases k
  obtain ⟨hdll, hdlm, hpre⟩ := h.divisor
  rw [he]
  exact ⟨hdll, hdlm, hpre, rfl⟩

/-- WR_DLL stores the low byte (R505). -/
theorem State.onChannel_wrDll_divisor (s : State) (d : Byte) :
    (s.onChannel (wrDllCall d)).chan.dll = d ∧ (s.onChannel (wrDllCall d)).chan.dlm = s.chan.dlm ∧
    (s.onChannel (wrDllCall d)).chan.prescaleOn = s.chan.prescaleOn ∧
    (s.onChannel (wrDllCall d)).chan.baudCnt = (s.onChannel (wrDllCall d)).chan.baudConst :=
  divisorReprogram_divisor ⟨{ s.chan with dll := d }, s.events, none⟩

/-- WR_DLM stores the high byte (R507). -/
theorem State.onChannel_wrDlm_divisor (s : State) (d : Byte) :
    (s.onChannel (wrDlmCall d)).chan.dll = s.chan.dll ∧ (s.onChannel (wrDlmCall d)).chan.dlm = d ∧
    (s.onChannel (wrDlmCall d)).chan.prescaleOn = s.chan.prescaleOn ∧
    (s.onChannel (wrDlmCall d)).chan.baudCnt = (s.onChannel (wrDlmCall d)).chan.baudConst :=
  divisorReprogram_divisor ⟨{ s.chan with dlm := d }, s.events, none⟩

/-- Without the prescaler the baud constant is the divisor as a number, 0 counting as 1 (R1001, R1004). -/
theorem Channel.baudConst_of_divisor {c : Channel} (h : c.prescaleOn = false) : c.baudConst =
    if 256 * c.dlm.toNat + c.dll.toNat = 0 then 1 else 256 * c.dlm.toNat + c.dll.toNat := by
  rw [c.baudConst_of_not_prescaleOn (by simp [h]), Channel.divisorEff, c.divisor_toNat]

/-- Settles O54: the second write keeps the first byte and the prescaler's switch, and reloads last. -/
theorem divisorRoundTrip : Obligations.DivisorRoundTrip := by
  unfold Obligations.DivisorRoundTrip
  intro s lo hi hoff
  obtain ⟨hdll, -, hpre, -⟩ := s.onChannel_wrDll_divisor lo
  obtain ⟨hdll', hdlm', hpre', hcnt⟩ := (s.onChannel (wrDllCall lo)).onChannel_wrDlm_divisor hi
  refine ⟨_, _, rfl, rfl, ?_, hcnt, hdll'.trans hdll, hdlm'⟩
  rw [Channel.baudConst_of_divisor (hpre'.trans (hpre.trans hoff)), hdlm', hdll', hdll]

end Sys2Proof.Machine
end

section
/-! The encoding (R300 to R307): the words of the table's rows and the decode agree in both directions, a bus word
matches the word of the one row it decodes to, and the decode fails on the undefined host codes only. -/

namespace Sys2Proof.Machine

/-- A channel word is its top five bits (H, W and A) followed by its data byte (R300, R301). -/
theorem channelWord_eq_append (w : BitVec 13) : w = w.extractLsb' 8 5 ++ w.extractLsb' 0 8 := by
  rw [BitVec.extractLsb'_append_extractLsb'_eq_extractLsb' (Nat.zero_add 8).symm]
  simp

/-- A channel word with H = 0 has the fields W, A and D (R301). -/
theorem channelWord_eq_fields {w : BitVec 13} (h : w.getLsbD 12 = false) :
    ∃ (wr : BitVec 1) (a : Offset) (d : Byte), w = 0#1 ++ wr ++ a ++ d := by
  have hfields : ∀ p : BitVec 5, p.getLsbD 4 = false → ∃ (wr : BitVec 1) (a : Offset), p = 0#1 ++ wr ++ a := by
    decide
  obtain ⟨wr, a, hp⟩ := hfields (w.extractLsb' 8 5) (by simpa using h)
  exact ⟨wr, a, w.extractLsb' 0 8, hp ▸ channelWord_eq_append w⟩

/-- A channel word that agrees with a bus word in W and A differs from it at most in D. -/
theorem eq_fields_of_extractLsb'_eq {wr : BitVec 1} {a : Offset} {d : Byte} {u : BitVec 13}
    (h : u.extractLsb' 8 5 = (0#1 ++ wr ++ a ++ d).extractLsb' 8 5) :
    ∃ d' : Byte, u = 0#1 ++ wr ++ a ++ d' := by
  rw [BitVec.extractLsb'_append_eq_left] at h
  exact ⟨u.extractLsb' 0 8, h ▸ channelWord_eq_append u⟩

/-- The eight offsets of a channel's bus (R201). -/
theorem offset_cases : ∀ a : Offset,
    a = 0#3 ∨ a = 1#3 ∨ a = 2#3 ∨ a = 3#3 ∨ a = 4#3 ∨ a = 5#3 ∨ a = 6#3 ∨ a = 7#3 := by decide

/-- A read's row does not depend on the data byte (R302). -/
theorem decodeBus_read_congr (v : DecodeView) (a : Offset) (d d' : Byte) :
    decodeBus v false a d = decodeBus v false a d' := by
  unfold decodeBus
  split <;> rfl

/-- The row a bus read selects has the pattern of the word read, its data byte written as 0 (R301, R302). -/
theorem encode_decodeBus_read (v : DecodeView) (a : Offset) (d : Byte) :
    encode (decodeBus v false a d) = readWord a := by
  rcases offset_cases a with rfl | rfl | rfl | rfl | rfl | rfl | rfl | rfl
  all_goals
    simp only [decodeBus, BitVec.reduceToNat, Bool.not_false, Bool.false_eq_true, if_true, if_false]
    repeat' split
    all_goals rfl

/-- The row a bus write selects has the word written (R301): its data byte is the row's operand, and at offset 3 it
may be the row's literal, for which that row is selected only. -/
theorem encode_decodeBus_write (v : DecodeView) (a : Offset) (d : Byte) :
    encode (decodeBus v true a d) = writeWord a d := by
  rcases offset_cases a with rfl | rfl | rfl | rfl | rfl | rfl | rfl | rfl
  all_goals simp only [decodeBus, BitVec.reduceToNat, Bool.not_true, Bool.false_eq_true, if_true, if_false]
  case inr.inr.inr.inl =>
    split
    next h =>
      obtain rfl : d = bankEntryLiteral := eq_of_beq (Bool.and_eq_true_iff.mp h).2
      rfl
    next => rfl
  all_goals
    repeat' split
    all_goals rfl

/-- A bus read decodes by R412 on its offset. -/
@[simp] theorem decode_readWord (v : DecodeView) (a : Offset) :
    decode v (readWord a) = .ok (decodeBus v false a 0x00) :=
  decode_channelWord v 0#1 a 0x00

/-- A bus write decodes by R412 on its offset and its data byte. -/
@[simp] theorem decode_writeWord (v : DecodeView) (a : Offset) (d : Byte) :
    decode v (writeWord a d) = .ok (decodeBus v true a d) :=
  decode_channelWord v 1#1 a d

/-- A composite word with H = 0 is a bus access to a child (R304). -/
theorem decode_compositeWord (v : DecodeView) (w : BitVec 1) (ao : AggregateOffset) (d : Byte) :
    decode v (.composite (0#1 ++ w ++ ao ++ d)) = .ok (if w.getLsbD 0 then .cwr ao d else .crd ao) := by
  obtain ⟨h14, h13, hao, hd⟩ := compositeWord_fields 0#1 w ao d
  simp only [decode, decodeCompositeWord, h14, h13, hao, hd]
  simp only [BitVec.getLsbD_zero, Bool.false_eq_true, if_false]
  split <;> rfl

/-- In a state that meets a row's condition the row's word decodes to the row (R305): for a bus row, the decode asks
at the row's offset for just what the condition says. -/
theorem decode_encode {v : DecodeView} {i : Instr} (h : i.condition v = true) : decode v (encode i) = .ok i := by
  cases i with
  | tick | reset | ctick | creset => rfl
  | crd ao => exact decode_compositeWord v 0#1 ao 0x00
  | cwr ao d => exact decode_compositeWord v 1#1 ao d
  | _ => simp_all [Instr.condition, encode, decodeBus, bankEntryLiteral, imp_iff_not_or, or_comm]

/-- The row a bus word decodes to matches the word (R301, R306). -/
theorem decodeBus_matchesWord (v : DecodeView) (wr : BitVec 1) (a : Offset) (d : Byte) :
    (decodeBus v (wr.getLsbD 0) a d).MatchesWord (0#1 ++ wr ++ a ++ d) := by
  rcases BitVec.eq_zero_or_eq_one wr with rfl | rfl
  · refine ⟨_, encode_decodeBus_read v a d, ?_, fun hw => ?_⟩
    · simp only [BitVec.extractLsb'_append_eq_left]
    · rw [(channelWord_fields ..).2.1] at hw
      cases hw
  · exact ⟨_, encode_decodeBus_write v a d, rfl, fun _ => rfl⟩

/-- A row whose condition holds and which matches a bus word is the row the word decodes to: the word decodes like
the row's own, from which it differs only in a read's data byte (R302). -/
theorem eq_decodeBus_of_matchesWord {v : DecodeView} {wr : BitVec 1} {a : Offset} {d : Byte} {j : Instr}
    (hc : j.condition v = true) (hm : j.MatchesWord (0#1 ++ wr ++ a ++ d)) :
    j = decodeBus v (wr.getLsbD 0) a d := by
  obtain ⟨u, hu, htop, hwrite⟩ := hm
  obtain ⟨d', rfl⟩ := eq_fields_of_extractLsb'_eq htop
  have hj := decode_encode hc
  rw [hu, decode_channelWord] at hj
  obtain rfl := Except.ok.inj hj
  obtain ⟨-, hw, -, hd⟩ := channelWord_fields 0#1 wr a d
  cases hwr : wr.getLsbD 0 with
  | false => exact decodeBus_read_congr v a d' d
  | true =>
    obtain ⟨-, -, -, hd'⟩ := channelWord_fields 0#1 wr a d'
    rw [← hd', hwrite (hw.trans hwr), hd]

/-- A write to FCR changes nothing where there is no FIFO (R605). -/
theorem wrFcrCall_of_depth_eq_zero {k : Call} (h : k.ch.depth = 0) (d : Byte) : wrFcrCall d k = k := if_pos h

/-- Settles O3: the row the bus decode selects is the one, and both examples are instances of the laws above. -/
theorem everyBusWordDecodesToExactlyOneOperation : Obligations.EveryBusWordDecodesToExactlyOneOperation := by
  unfold Obligations.EveryBusWordDecodesToExactlyOneOperation
  refine ⟨fun v w hH => ?_, fun s hs d => ?_, fun v hv => ?_⟩
  · obtain ⟨wr, a, d, rfl⟩ := channelWord_eq_fields hH
    exact ⟨_, decode_channelWord v wr a d, decodeBus_condition .., decodeBus_matchesWord v wr a d,
      fun j => eq_decodeBus_of_matchesWord⟩
  · rw [exec_of_not_composite s rfl, State.onChannel, channelCall, wrFcrCall_of_depth_eq_zero hs]
  · exact decode_encode (i := .wrLcr 0xBF) (by simp [Instr.condition, hv])

/-- A channel word decodes to nothing exactly where it is an undefined host code, which the error names (R307). -/
theorem decodeChannelWord_eq_error_iff {v : DecodeView} {w : BitVec 13} {e : DecodeError} :
    decodeChannelWord v w = .error e ↔
      (w.getLsbD 12 = true ∧ 0x002 ≤ (w.extractLsb' 0 12).toNat) ∧ e = .undefinedHostCode w := by
  unfold decodeChannelWord
  split
  next hH =>
    split
    next h0 => simp [h0]
    next h0 =>
      split
      next h1 => simp [h1]
      next h1 =>
        have hcode : 0x002 ≤ (w.extractLsb' 0 12).toNat := by bv_omega
        exact ⟨fun h => ⟨⟨hH, hcode⟩, (Except.error.inj h).symm⟩, fun h => congrArg _ h.2.symm⟩
  next hH => exact ⟨nofun, fun h => absurd h.1.1 hH⟩

/-- A composite word decodes to nothing exactly where it is an undefined code, which the error names (R307). -/
theorem decodeCompositeWord_eq_error_iff {w : BitVec 15} {e : DecodeError} :
    decodeCompositeWord w = .error e ↔
      (w.getLsbD 14 = true ∧ 0x0002 ≤ (w.extractLsb' 0 14).toNat) ∧ e = .undefinedCompositeCode w := by
  unfold decodeCompositeWord
  split
  next hH =>
    split
    next h0 => simp [h0]
    next h0 =>
      split
      next h1 => simp [h1]
      next h1 =>
        have hcode : 0x0002 ≤ (w.extractLsb' 0 14).toNat := by bv_omega
        exact ⟨fun h => ⟨⟨hH, hcode⟩, (Except.error.inj h).symm⟩, fun h => congrArg _ h.2.symm⟩
  next hH => exact ⟨by split <;> nofun, fun h => absurd h.1.1 hH⟩

/-- A waiting word that decodes to nothing makes the step a refusal that names it (R307). -/
theorem step_of_decode_eq_error {s : State} {word : HostWord} {rest : List HostWord} {e : DecodeError}
    (hp : s.program = word :: rest) (hd : decode s.chan.view word = .error e) :
    step s = .refused (refusalOf e) := by
  simp only [step, hp, hd]

/-- Settles O4: the decode's failures are the undefined codes, and a step fails with its decode. -/
theorem undefinedCodesAreTheOnlyWordsRefused : Obligations.UndefinedCodesAreTheOnlyWordsRefused := by
  unfold Obligations.UndefinedCodesAreTheOnlyWordsRefused
  refine ⟨fun s w rest hp hH hcode => ?_, fun s w rest hp hH hcode => ?_, fun v w e he => ?_, fun v w e he => ?_⟩
  · exact step_of_decode_eq_error hp (decodeChannelWord_eq_error_iff.mpr ⟨⟨hH, hcode⟩, rfl⟩)
  · exact step_of_decode_eq_error hp (decodeCompositeWord_eq_error_iff.mpr ⟨⟨hH, hcode⟩, rfl⟩)
  · exact (decodeChannelWord_eq_error_iff.mp he).1
  · exact (decodeCompositeWord_eq_error_iff.mp he).1

end Sys2Proof.Machine
end

section
/-! The bus decode against the capability table (R401 to R412): a row whose condition holds names a bank or register
the variant has, so every decoded operation is well formed; and a step runs the operation its word decodes to. -/

namespace Sys2Proof.Machine

/-- A row whose condition holds is well formed (R411). The bank rows and RD_RBR_FIFO rest on what the view's bank
latch and FIFO discipline say of the variant; the ASR, ICR and LCR rows ask for their capability themselves. -/
theorem wellFormed_of_condition {v : DecodeView} {i : Instr} (hbank : v.bank = true → v.variant.hasBank650 = true)
    (hfifo : v.fifoOn = true → v.variant.fifoCap = true) (hc : i.condition v = true) :
    i.wellFormed v.variant = true := by
  cases i with
  | rdRbrFifo => exact hfifo (Bool.and_elim_right hc)
  | rdEfr | wrEfr | rdXon1 | wrXon1 => exact hbank hc
  | rdAsr => exact Bool.and_elim_left (Bool.and_elim_right hc)
  | rdIcr | wrIcr => exact Bool.and_elim_right hc
  | wrLcr | wrLcrBank => exact hc
  | _ => rfl

/-- An operation of the composite is well formed on every variant: a child decodes it in its own state (R1103). -/
theorem wellFormed_of_isComposite {i : Instr} (hi : i.isComposite = true) (v : Variant) :
    i.wellFormed v = true := by
  cases i with
  | crd | cwr | ctick | creset => rfl
  | _ => cases hi

/-- A waiting word that decodes makes the step the decoded operation's meaning, in the advanced state (R103, R410). -/
theorem step_of_decode_eq_ok {s : State} {word : HostWord} {rest : List HostWord} {i : Instr}
    (hp : s.program = word :: rest) (hd : decode s.chan.view word = .ok i) :
    step s = exec i (s.advance rest) := by
  simp only [step, hp, hd]

/-- Settles O8: a channel word decodes to a row whose condition holds, a composite word to a row every variant has. -/
theorem noDecodeSelectsAnAbsentRegister : Obligations.NoDecodeSelectsAnAbsentRegister := by
  unfold Obligations.NoDecodeSelectsAnAbsentRegister
  intro v word i hbank hfifo hd
  cases word with
  | channel w => exact wellFormed_of_condition hbank hfifo (decodeChannelWord_ok hd).1
  | composite w => exact wellFormed_of_isComposite (decodeCompositeWord_ok hd) v.variant

/-- Settles O5: the state the operation runs in is the advanced one, which differs in the host's sequence only. -/
theorem stepRunsTheDecodedOperation : Obligations.StepRunsTheDecodedOperation := by
  unfold Obligations.StepRunsTheDecodedOperation
  intro s word rest i hp hd
  exact step_of_decode_eq_ok hp hd

end Sys2Proof.Machine
end

section
/-! The data registers (R501 to R509) and the plain control registers (R606 to R615): where a row decodes, what is
observed of an operation on the stand-alone channel, and the rows that read or store one register. -/

namespace Sys2Proof.Machine

/-- In a state that meets a read row's condition a read at the row's offset decodes to the row, whatever its D field
holds (R302, R305). -/
theorem State.readDecodes {s : State} {a : Offset} {i : Instr} (hword : encode i = readWord a)
    (hc : i.condition s.chan.view = true) : s.ReadDecodes a i := by
  intro d
  have hi := decode_encode hc
  rw [hword, decode_readWord, decodeBus_read_congr _ a 0x00 d] at hi
  exact (decode_channelWord _ 0#1 a d).trans hi

/-- In a state that meets a write row's condition the row's word decodes to the row (R305). -/
theorem State.writeDecodes {s : State} {a : Offset} {d : Byte} {i : Instr} (hword : encode i = writeWord a d)
    (hc : i.condition s.chan.view = true) : s.WriteDecodes a d i := by
  have hi := decode_encode hc
  rwa [hword] at hi

/-- What is observed of an operation on the stand-alone channel, beside its line calls: the channel, the data
callbacks it adds to the log, and the result. -/
theorem State.quiet_onChannel {s : State} {op : Call → Call} {es : List Event}
    (h : dataCalls (op ⟨s.chan, s.events, none⟩).events = dataCalls s.events ++ es) :
    (s.onChannel op).quiet = { s.quiet with
      chan := (op ⟨s.chan, s.events, none⟩).ch
      events := dataCalls s.events ++ es
      result := (op ⟨s.chan, s.events, none⟩).result } := by
  rw [← h]
  rfl

/-- The same of an operation that makes no data callback. -/
theorem State.quiet_onChannel_of_no_dataCalls {s : State} {op : Call → Call}
    (h : dataCalls (op ⟨s.chan, s.events, none⟩).events = dataCalls s.events) :
    (s.onChannel op).quiet = { s.quiet with
      chan := (op ⟨s.chan, s.events, none⟩).ch
      result := (op ⟨s.chan, s.events, none⟩).result } := by
  rw [quiet_onChannel (h.trans (List.append_nil _).symm), List.append_nil]
  rfl

/-- Settles O9: the decodes are the rows' conditions, and each read returns its register by its definition. -/
theorem plainReadsReturnTheirRegister : Obligations.PlainReadsReturnTheirRegister := by
  unfold Obligations.PlainReadsReturnTheirRegister
  intro s
  exact ⟨fun hdlab => State.readDecodes rfl hdlab, rfl,
    fun hdlab => State.readDecodes rfl hdlab, rfl,
    State.readDecodes rfl rfl, rfl,
    fun hbank => State.readDecodes rfl hbank, rfl,
    State.readDecodes rfl rfl, rfl,
    fun hbank => State.readDecodes rfl hbank, rfl,
    fun hx hbank => State.readDecodes rfl (Bool.and_eq_true_iff.mpr ⟨hbank, hx⟩), rfl⟩

/-- A byte other than the bank-entry literal of a variant with the bank is stored into LCR (R405, R609). -/
theorem condition_wrLcr {v : DecodeView} {d : Byte} (h : ¬(v.variant.hasBank650 = true ∧ d = 0xBF)) :
    (Instr.wrLcr d).condition v = true := by
  simpa [Instr.condition, bankEntryLiteral, imp_iff_not_or] using h

/-- Settles O12: the decodes are the rows' conditions, and each write stores its register by its definition. -/
theorem plainWritesStoreTheirRegister : Obligations.PlainWritesStoreTheirRegister := by
  unfold Obligations.PlainWritesStoreTheirRegister
  intro s d
  exact ⟨State.writeDecodes rfl rfl, rfl,
    fun hbank => State.writeDecodes rfl hbank, rfl,
    fun hbank => State.writeDecodes rfl hbank, rfl,
    fun hd => State.writeDecodes rfl (condition_wrLcr hd), rfl,
    fun hcap => State.writeDecodes rfl hcap, rfl⟩

/-- What an unbuffered RBR read does to the channel (R501, R802): DR and the RDA source go. -/
theorem rdRbrCall_ch (k : Call) : (rdRbrCall k).ch =
    { k.ch with lsr := k.ch.lsr &&& 0xFE, pending := k.ch.pending &&& 0x1E }.identified := by
  rw [← setBit_dr_false]
  rfl

@[simp] theorem rdRbrCall_dataCalls (k : Call) : dataCalls (rdRbrCall k).events = dataCalls k.events := by
  simp [rdRbrCall]

/-- Settles O13: the read's only callback is the recomputation's. -/
theorem unbufferedRbrReadClearsDataReady : Obligations.UnbufferedRbrReadClearsDataReady := by
  unfold Obligations.UnbufferedRbrReadClearsDataReady
  intro s
  refine ⟨fun hdlab hfifo => State.readDecodes rfl ?_, _, rfl, ?_⟩
  · simp only [Instr.condition, Channel.view, hdlab, hfifo, Bool.not_false, Bool.and_self]
  · rw [State.quiet_onChannel_of_no_dataCalls (rdRbrCall_dataCalls _), rdRbrCall_ch]
    rfl

end Sys2Proof.Machine
end

section
/-! The RBR read in the FIFO discipline (R502, R912): the pop, then everything that follows the bytes it leaves. -/

namespace Sys2Proof.Machine

/-- A buffer with contents holds a byte, and a pop takes the oldest and leaves the rest in order (R902). -/
theorem Fifo.pop_of_contents_cons {depth : Nat} {f : Fifo} {b : Byte} {rest : List Byte} (hok : f.Ok depth)
    (h : f.contents depth = b :: rest) : 0 < f.count ∧ f.front = b ∧ (f.pop depth).contents depth = rest := by
  have hc : 0 < f.count := by
    rw [← f.contents_length depth, h]
    exact Nat.succ_pos _
  obtain ⟨hb, hrest⟩ := List.cons.inj (h.symm.trans (Fifo.contents_pop hok hc))
  exact ⟨hc, hb.symm, hrest.symm⟩

/-- With a byte in the FIFO a pop returns the oldest (R502, R912). -/
theorem popRx_of_cons {c : Channel} {b : Byte} {rest : List Byte} (hok : c.rx.Ok c.depth)
    (h : c.rxContents = b :: rest) : c.popValue = b ∧ (popRx c).rxContents = rest := by
  obtain ⟨hc, hb, hrest⟩ := Fifo.pop_of_contents_cons hok h
  rw [Channel.popValue, popRx, if_pos hc, if_pos hc]
  exact ⟨hb, hrest⟩

/-- Without one it leaves the FIFO as it is (R912). -/
theorem popRx_of_nil {c : Channel} (h : c.rxContents = []) : (popRx c).rx = c.rx := by
  rw [popRx, if_neg (Nat.not_lt.mpr (Fifo.contents_eq_nil.mp h).le)]

/-- A pop itself touches the FIFO and the draw counter only. -/
theorem popRx_eq (c : Channel) : popRx c = { c with rx := (popRx c).rx, draws := (popRx c).draws } := by
  unfold popRx
  split <;> rfl

/-- The sources after a pop, by the bytes left (R912). -/
theorem Channel.pendingAfterPop_eq (c : Channel) : c.pendingAfterPop =
    if c.trigLevel ≤ c.rxContents.length then (c.pending &&& 0x0E) ||| 0x01 else c.pending &&& 0x0E := by
  rw [Channel.rxContents, Fifo.contents_length]
  rfl

/-- DR and the timeout after a pop, by the bytes left (R912, R1009). -/
theorem settleRx_eq (c : Channel) : settleRx c = { c with
    lsr := if c.rxContents = [] then c.lsr &&& 0xFE else c.lsr
    toArmed := decide (c.rxContents ≠ [])
    toCnt := if c.rxContents = [] then 0 else 4 * frameBits c.lcr * c.baudConst } := by
  have hc : c.rxContents = [] ↔ c.rx.count = 0 := Fifo.contents_eq_nil
  unfold settleRx
  by_cases h : c.rxContents = []
  · rw [if_pos (hc.mp h), if_pos h, if_pos h, decide_eq_false (not_not_intro h), setBit_dr_false]
    rfl
  · rw [if_neg (mt hc.mpr h), if_neg h, if_neg h, decide_eq_true h]
    rfl

/-- What a pop does to the channel (R912): everything but the FIFO and the draw counter follows the bytes left. -/
theorem rxPop_ch (k : Call) : (rxPop k).ch = { k.ch with
    rx := (popRx k.ch).rx
    draws := (popRx k.ch).draws
    lsr := if (popRx k.ch).rxContents = [] then k.ch.lsr &&& 0xFE else k.ch.lsr
    pending :=
      if k.ch.trigLevel ≤ (popRx k.ch).rxContents.length then (k.ch.pending &&& 0x0E) ||| 0x01
      else k.ch.pending &&& 0x0E
    toArmed := decide ((popRx k.ch).rxContents ≠ [])
    toCnt := if (popRx k.ch).rxContents = [] then 0 else 4 * frameBits k.ch.lcr * k.ch.baudConst }.identified := by
  have hch : (rxPop k).ch =
    (settleRx { popRx k.ch with pending := (popRx k.ch).pendingAfterPop }).identified := rfl
  rw [hch, settleRx_eq, Channel.pendingAfterPop_eq, popRx_eq]
  rfl

theorem rxPop_rxContents (k : Call) : (rxPop k).ch.rxContents = (popRx k.ch).rxContents := by
  rw [rxPop_ch, popRx_eq]
  rfl

/-- Settles O14: the byte and what is left are the pop's own, and the rest of the channel follows what is left. -/
theorem fifoReadPopsTheOldestByte : Obligations.FifoReadPopsTheOldestByte := by
  unfold Obligations.FifoReadPopsTheOldestByte
  intro s
  refine ⟨fun hdlab hfifo => State.readDecodes rfl ?_, fun hok => ?_⟩
  · simp only [Instr.condition, Channel.view, hdlab, hfifo, Bool.not_false, Bool.and_self]
  have hleft := rxPop_rxContents ⟨s.chan, s.events, none⟩
  have hch := rxPop_ch ⟨s.chan, s.events, none⟩
  refine ⟨s.onChannel rxPop, s.chan.popValue, rfl, fun b rest h => ?_, fun h => ?_, ?_⟩
  · rw [State.onChannel_chan, hleft]
    exact popRx_of_cons hok h
  · rw [State.onChannel_chan, hch]
    exact popRx_of_nil h
  · rw [State.quiet_onChannel_of_no_dataCalls (rxPop_dataCalls _), State.onChannel_chan, hleft, hch]
    rfl

end Sys2Proof.Machine
end

section
/-! The completion of the byte in the TSR in terms of what was queued (R903, R904, R907), and the divisor writes that
force one (R505, R507, R1011). -/

namespace Sys2Proof.Machine

section Flags
variable (k : Call) {c : Channel}

@[simp] theorem updateTxFlags_lsr : (updateTxFlags k).ch.lsr = k.ch.lsrWithTxFlags := by
  rw [updateTxFlags_ch]
  split <;> rfl

/-- The THRE source is raised where LSR[5] rises (R903). -/
@[simp] theorem updateTxFlags_pending : (updateTxFlags k).ch.pending =
    if k.ch.lsr.getLsbD 5 = false ∧ k.ch.holdingEmpty = true then k.ch.pending ||| 0x02 else k.ch.pending := by
  simp only [updateTxFlags_ch, Bool.and_eq_true, Bool.not_eq_true']
  split <;> rfl

@[simp] theorem updateTxFlags_tsrBusy : (updateTxFlags k).ch.tsrBusy = k.ch.tsrBusy := by
  rw [updateTxFlags_ch]
  split <;> rfl

@[simp] theorem updateTxFlags_tsrByte : (updateTxFlags k).ch.tsrByte = k.ch.tsrByte := by
  rw [updateTxFlags_ch]
  split <;> rfl

@[simp] theorem updateTxFlags_txBits : (updateTxFlags k).ch.txBits = k.ch.txBits := by
  rw [updateTxFlags_ch]
  split <;> rfl

@[simp] theorem updateTxFlags_thrPending : (updateTxFlags k).ch.thrPending = k.ch.thrPending := by
  rw [updateTxFlags_ch]
  split <;> rfl

@[simp] theorem updateTxFlags_tx : (updateTxFlags k).ch.tx = k.ch.tx := by
  rw [updateTxFlags_ch]
  split <;> rfl

theorem updateTxFlags_identificationOk (h : k.ch.IdentificationOk) : (updateTxFlags k).ch.IdentificationOk := by
  rw [updateTxFlags_ch]
  split
  · exact Channel.identified_ok _
  · exact ⟨h.iirId, h.intLine⟩

theorem Channel.holdingEmpty_of_unbuffered (hf : c.fifoOn = false) :
    c.holdingEmpty = (!c.tsrBusy && !c.thrPending) := by
  rw [Channel.holdingEmpty, hf]
  rfl

theorem Channel.holdingEmpty_of_fifo (hf : c.fifoOn = true) : c.holdingEmpty = decide (c.txContents = []) := by
  simp only [Channel.holdingEmpty, hf, if_true, Channel.txContents, Fifo.contents_eq_nil, beq_eq_decide]

/-- With the TSR idle and nothing queued both empty flags are set (R903). -/
theorem Channel.lsrWithTxFlags_of_empty (hh : c.holdingEmpty = true) (hb : c.tsrBusy = false) :
    c.lsrWithTxFlags = c.lsr ||| 0x60 := by
  have ht : c.transmitterEmpty = true := by simp [Channel.transmitterEmpty, hh, hb]
  rw [Channel.lsrWithTxFlags, hh, ht, setBit_tx_both]

/-- With a byte in the TSR TEMT is clear, and THRE says whether the holding register is empty (R903). -/
theorem Channel.lsrWithTxFlags_of_busy (hb : c.tsrBusy = true) :
    c.lsrWithTxFlags = (c.lsr &&& 0x9F) ||| (if c.holdingEmpty then 0x20 else 0x00) := by
  have ht : c.transmitterEmpty = false := by
    cases hf : c.fifoOn <;> simp [Channel.transmitterEmpty, Channel.holdingEmpty, hf, hb]
  rw [Channel.lsrWithTxFlags, ht]
  cases c.holdingEmpty with
  | true => exact setBit_tx_thre c.lsr
  | false => exact (setBit_tx_none c.lsr).trans (BitVec.or_zero ..).symm

end Flags

/-- The channel whose TSR has just given its byte away (R907). -/
def Channel.idled (c : Channel) : Channel := { c with tsrBusy := false, txBits := 0 }

theorem txComplete_ch (k : Call) : (txComplete k).ch = (updateTxFlags (k.modify fun c => loadNext c.idled)).ch := by
  rw [txComplete_eq, updateTxFlags_ch, updateTxFlags_ch]
  rfl

/-- Nothing is loaded where nothing is queued. -/
theorem loadNext_of_holdingEmpty {c : Channel} (h : c.holdingEmpty = true) : loadNext c = c := by
  cases hf : c.fifoOn with
  | true =>
    have hc : c.tx.count = 0 := by simpa [Channel.holdingEmpty, hf] using h
    simp [loadNext, txStartFromFifo, hf, hc]
  | false =>
    have hp : c.thrPending = false := by
      rw [Channel.holdingEmpty_of_unbuffered hf, Bool.and_eq_true] at h
      simpa using h.2
    simp [loadNext, hf, hp]

/-- In the unbuffered discipline the byte waiting in THR is loaded (R907). -/
theorem loadNext_of_thrPending {c : Channel} (hf : c.fifoOn = false) (hp : c.thrPending = true) :
    loadNext c = txStart c.thr { c with thrPending := false } := by
  simp only [loadNext, hf, hp, Bool.false_eq_true, if_false, if_true]

/-- In the FIFO discipline the oldest byte of the queue is loaded, and the rest stays in order (R907). -/
theorem loadNext_of_cons {c : Channel} {b : Byte} {rest : List Byte} (hf : c.fifoOn = true) (hok : c.tx.Ok c.depth)
    (h : c.txContents = b :: rest) : loadNext c = txStart b { c with tx := c.tx.pop c.depth } ∧
      (c.tx.pop c.depth).contents c.depth = rest := by
  obtain ⟨hc, hb, hrest⟩ := Fifo.pop_of_contents_cons hok h
  rw [loadNext, if_pos hf, txStartFromFifo, if_pos hc, hb]
  exact ⟨rfl, hrest⟩

theorem loadNext_identificationOk {c : Channel} (h : c.IdentificationOk) : (loadNext c).IdentificationOk := by
  unfold loadNext txStartFromFifo
  split <;> split <;> exact ⟨h.iirId, h.intLine⟩

section Completion
variable {k : Call}

/-- A completion with nothing queued leaves the transmitter empty (R903, R907). -/
theorem txComplete_of_holdingEmpty (h : k.ch.idled.holdingEmpty = true) :
    (txComplete k).ch.tsrBusy = false ∧ (txComplete k).ch.txBits = 0 ∧ (txComplete k).ch.tsrByte = k.ch.tsrByte ∧
    (txComplete k).ch.thrPending = k.ch.thrPending ∧ (txComplete k).ch.tx = k.ch.tx ∧
    (txComplete k).ch.lsr = k.ch.lsr ||| 0x60 ∧
    (txComplete k).ch.pending = (if k.ch.lsr.getLsbD 5 then k.ch.pending else k.ch.pending ||| 0x02) := by
  have hl := Channel.lsrWithTxFlags_of_empty h rfl
  simp only [txComplete_ch, updateTxFlags_tsrBusy, updateTxFlags_txBits, updateTxFlags_tsrByte,
    updateTxFlags_thrPending, updateTxFlags_tx, updateTxFlags_lsr, updateTxFlags_pending, Call.modify_ch,
    loadNext_of_holdingEmpty h, hl, h, and_true]
  refine ⟨rfl, rfl, rfl, rfl, rfl, rfl, ?_⟩
  change (if k.ch.lsr.getLsbD 5 = false then _ else _) = _
  cases k.ch.lsr.getLsbD 5 <;> rfl

/-- A completion that loads the next byte starts its frame (R903, R904, R907). -/
theorem txComplete_of_loadNext {b : Byte} {c : Channel} {e : Prop} [Decidable e]
    (h : loadNext k.ch.idled = txStart b c) (he : (txStart b c).holdingEmpty = decide e) :
    (txComplete k).ch.tsrBusy = true ∧ (txComplete k).ch.txBits = frameBits c.lcr ∧ (txComplete k).ch.tsrByte = b ∧
    (txComplete k).ch.thrPending = c.thrPending ∧ (txComplete k).ch.tx = c.tx ∧
    (txComplete k).ch.lsr = (c.lsr &&& 0x9F) ||| (if e then 0x20 else 0x00) ∧
    (txComplete k).ch.pending = (if e ∧ c.lsr.getLsbD 5 = false then c.pending ||| 0x02 else c.pending) := by
  have hl := Channel.lsrWithTxFlags_of_busy (txStart_tsrBusy c b)
  simp only [txComplete_ch, updateTxFlags_tsrBusy, updateTxFlags_txBits, updateTxFlags_tsrByte,
    updateTxFlags_thrPending, updateTxFlags_tx, updateTxFlags_lsr, updateTxFlags_pending, Call.modify_ch, h, hl, he,
    decide_eq_true_eq, and_comm (b := e)]
  exact ⟨rfl, rfl, rfl, rfl, rfl, rfl, rfl⟩

/-- The completion of the byte in the TSR, in terms of what was queued (R907). -/
theorem txComplete_completesTo (hok : k.ch.tx.Ok k.ch.depth) : k.ch.CompletesTo (txComplete k).ch where
  frame := txComplete_onlyTransmitter k
  identified h := by
    rw [txComplete_ch]
    exact updateTxFlags_identificationOk _ (loadNext_identificationOk ⟨h.iirId, h.intLine⟩)
  lastUnbuffered hf hp := by
    have he : k.ch.idled.holdingEmpty = true := by
      rw [Channel.holdingEmpty_of_unbuffered (c := k.ch.idled) hf]
      exact congrArg (!·) hp
    exact hp ▸ txComplete_of_holdingEmpty he
  queuedUnbuffered hf hp := by
    have hl := txComplete_of_loadNext (e := False) (loadNext_of_thrPending (c := k.ch.idled) hf hp)
      (Channel.holdingEmpty_of_unbuffered hf)
    simpa [Channel.idled] using hl
  lastFifo hf h := by
    have he : k.ch.idled.holdingEmpty = true := by
      rw [Channel.holdingEmpty_of_fifo (c := k.ch.idled) hf]
      exact decide_eq_true h
    exact txComplete_of_holdingEmpty he
  queuedFifo hf b rest h := by
    obtain ⟨hload, rfl⟩ := loadNext_of_cons (c := k.ch.idled) hf hok h
    obtain ⟨hbusy, hbits, hbyte, hthr, htx, hlsr, hpending⟩ :=
      txComplete_of_loadNext hload (Channel.holdingEmpty_of_fifo hf)
    refine ⟨hbusy, hbits, hbyte, hthr, ?_, ?_, ?_⟩
    · simp only [Channel.txContents, Channel.depth, htx, (txComplete_keepsLine (.refl k)).cfg]
      rfl
    · exact hlsr
    · exact hpending

end Completion

/-- The registers of the divisor and of the prescaler are no part of the transmitter. -/
theorem Channel.OnlyTransmitter.baudConst_eq {c c' : Channel} (h : c.OnlyTransmitter c') :
    c'.baudConst = c.baudConst := by
  unfold Channel.OnlyTransmitter at h
  rw [h]
  rfl

/-- With an idle transmitter the reprogramming reloads the countdown only (R1011). -/
theorem divisorReprogram_of_idle {k : Call} (h : k.ch.tsrBusy = false) :
    divisorReprogram k = k.modify fun c => { c with baudCnt := c.baudConst } := by
  simp only [divisorReprogram, h, Bool.false_eq_true, if_false]

/-- With a byte in the TSR the completion comes first, and the countdown is the new one all the same (R1011). -/
theorem divisorReprogram_ch_of_busy {k : Call} (h : k.ch.tsrBusy = true) :
    (divisorReprogram k).ch = { (txComplete k).ch with baudCnt := k.ch.baudConst } := by
  rw [← (txComplete_onlyTransmitter k).baudConst_eq, divisorReprogram, if_pos h]
  rfl

/-- Both divisor writes store their byte and reprogram (R505, R507). -/
theorem exec_divisorWrite {i : Instr} {s : State} {c : Channel} {d : Byte}
    (h : (i = .wrDll d ∧ c = { s.chan with dll := d }) ∨ (i = .wrDlm d ∧ c = { s.chan with dlm := d })) :
    ∃ op : Call → Call, exec i s = .next (s.onChannel op) ∧
      op ⟨s.chan, s.events, none⟩ = divisorReprogram ⟨c, s.events, none⟩ := by
  obtain ⟨rfl, rfl⟩ | ⟨rfl, rfl⟩ := h
  · exact ⟨wrDllCall d, rfl, rfl⟩
  · exact ⟨wrDlmCall d, rfl, rfl⟩

/-- Settles O17: the stored byte is part of the channel the reprogramming starts from, and the completion is an
ordinary one. -/
theorem divisorWritesReprogram : Obligations.DivisorWritesReprogram := by
  unfold Obligations.DivisorWritesReprogram
  intro s d
  refine ⟨fun hdlab => ⟨State.writeDecodes rfl hdlab, State.writeDecodes rfl hdlab⟩, fun i c hi => ?_⟩
  obtain ⟨op, hexec, hop⟩ := exec_divisorWrite hi
  refine ⟨fun hidle => ?_, fun hbusy hok => ?_⟩
  · rw [hexec, State.onChannel, hop, divisorReprogram_of_idle hidle]
    rfl
  · have hcalls : dataCalls (op ⟨s.chan, s.events, none⟩).events =
        dataCalls s.events ++ [.transmitByte c.cfg.handle c.cfg.sub c.tsrByte] := by
      rw [hop, divisorReprogram_dataCalls, if_pos hbusy]
    refine ⟨_, (txComplete ⟨c, s.events, none⟩).ch, hexec, txComplete_completesTo (k := ⟨c, s.events, none⟩) hok, ?_⟩
    rw [State.quiet_onChannel hcalls, hop, divisorReprogram_ch_of_busy hbusy, divisorReprogram_result]

end Sys2Proof.Machine
end

section
/-! The control registers of one step (R601 to R604, R611, R616): IER, ASR, IIR and ICR. -/

namespace Sys2Proof.Machine

theorem highNibble_eq_zero : ∀ v : Byte, v &&& 0xF0 = 0x00 → v.extractLsb' 4 4 = 0#4 := by decide

theorem highThreeBits_eq_zero : ∀ v : Byte, v &&& 0xE0 = 0x00 → v.extractLsb' 5 3 = 0#3 := by decide

/-- Offset 1 reads IER unless the variant's ACR selects the auxiliary status (R601, R603). -/
theorem condition_rdIer {c : Channel} (hdlab : c.lcr.getLsbD 7 = false)
    (hasr : ¬(c.cfg.variant.x950 = true ∧ (Memory.read c.icr 0x00).getLsbD 7 = true)) :
    Instr.rdIer.condition c.view = true := by
  rw [← Bool.and_eq_true, Bool.not_eq_true] at hasr
  exact Bool.and_eq_true_iff.mpr ⟨congrArg (!·) hdlab, congrArg (!·) hasr⟩

theorem condition_rdAsr {c : Channel} (hdlab : c.lcr.getLsbD 7 = false) (hx : c.cfg.variant.x950 = true)
    (hasr : (Memory.read c.icr 0x00).getLsbD 7 = true) : Instr.rdAsr.condition c.view = true :=
  Bool.and_eq_true_iff.mpr ⟨congrArg (!·) hdlab, Bool.and_eq_true_iff.mpr ⟨hx, hasr⟩⟩

/-- Settles O10: each read returns its register by its definition, and the invariant is about the stored bits. -/
theorem readsOfIerAndMcr : Obligations.ReadsOfIerAndMcr := by
  unfold Obligations.ReadsOfIerAndMcr
  intro s
  refine ⟨fun hdlab hasr => State.readDecodes rfl (condition_rdIer hdlab hasr), rfl,
    fun hbank => State.readDecodes rfl (congrArg (!·) hbank), rfl, fun hfixed hext => ⟨?_, ?_⟩⟩
  · exact ⟨_, s.chan.ier, rfl, rfl, highNibble_eq_zero _ (hfixed.ier hext)⟩
  · exact ⟨_, s.chan.mcr, rfl, rfl, highThreeBits_eq_zero _ (hfixed.mcr hext)⟩

/-- Settles O11: the read is a draw, by its definition. -/
theorem asrReadReturnsAFreeValue : Obligations.AsrReadReturnsAFreeValue := by
  unfold Obligations.AsrReadReturnsAFreeValue
  intro s
  exact ⟨fun hdlab hx hasr => State.readDecodes rfl (condition_rdAsr hdlab hx hasr), rfl⟩

/-- The channel an IER write recomputes (R602): the stored byte, and THRE raised where it has ETBEI with LSR[5]
set. -/
def Channel.withIer (d : Byte) (c : Channel) : Channel := { c with
  ier := storedIer c.cfg.variant d
  pending := if (storedIer c.cfg.variant d).getLsbD 1 = true ∧ c.lsr.getLsbD 5 = true then c.pending ||| 0x02
    else c.pending }

theorem wrIerCall_eq (d : Byte) (k : Call) : wrIerCall d k = recompute (k.modify (Channel.withIer d)) := by
  by_cases h : (storedIer k.ch.cfg.variant d).getLsbD 1 = true ∧ k.ch.lsr.getLsbD 5 = true
  · have hw : wrIerCall d k = trigger srcThre (k.modify fun c => { c with ier := storedIer c.cfg.variant d }) :=
      if_pos (Bool.and_eq_true_iff.mpr h)
    rw [hw, Call.modify, Call.modify, Channel.withIer, if_pos h]
    rfl
  · have hw : wrIerCall d k = recompute (k.modify fun c => { c with ier := storedIer c.cfg.variant d }) :=
      if_neg (mt Bool.and_eq_true_iff.mp h)
    rw [hw, Call.modify, Call.modify, Channel.withIer, if_neg h]

/-- Settles O18: the write is one recomputation of the stored byte and the sources with the kick. -/
theorem ierWriteStoresAndKicksThre : Obligations.IerWriteStoresAndKicksThre := by
  unfold Obligations.IerWriteStoresAndKicksThre
  intro s d
  refine ⟨fun hdlab => State.writeDecodes rfl (congrArg (!·) hdlab),
    s.onChannel (wrIerCall d), _, _, rfl, rfl, rfl, ?_⟩
  rw [State.quiet_onChannel_of_no_dataCalls (by simp [wrIerCall_eq]), wrIerCall_eq]
  rfl

/-- An IIR read that shows THRE clears it (R604). -/
theorem rdIirCall_of_thre {k : Call} (h : k.ch.iirId = 0b0010) :
    rdIirCall k = (clear srcThre k).ret k.ch.iirValue := by
  rw [rdIirCall, if_pos h]

theorem rdIirCall_of_not_thre {k : Call} (h : k.ch.iirId ≠ 0b0010) : rdIirCall k = k.ret k.ch.iirValue := by
  rw [rdIirCall, if_neg h]

/-- Settles O19: in both cases the value is that of the channel before the clear. -/
theorem iirReadClearsOnlyAShownThre : Obligations.IirReadClearsOnlyAShownThre := by
  unfold Obligations.IirReadClearsOnlyAShownThre
  intro s
  refine ⟨fun hbank => State.readDecodes rfl (congrArg (!·) hbank),
    s.onChannel rdIirCall, rfl, rfl, fun hid => ?_, fun hid => ?_⟩
  · rw [State.onChannel, rdIirCall_of_not_thre hid]
    rfl
  · have hr := rdIirCall_of_thre (k := ⟨s.chan, s.events, none⟩) hid
    rw [State.quiet_onChannel_of_no_dataCalls (by simp [hr]), State.onChannel_result, hr]
    rfl

theorem isIdIndex_eq_true_iff {n : Nat} : isIdIndex n = true ↔ 0x08 ≤ n ∧ n ≤ 0x0B := by
  simp [isIdIndex]

section Icr
variable {d : Byte} {k : Call}

/-- The identification block is read-only (R616). -/
theorem wrIcrCall_of_isIdIndex (h : isIdIndex k.ch.scr.toNat = true) : wrIcrCall d k = k := if_pos h

/-- 0x00 into CSR is the soft reset (R616, R1303). -/
theorem wrIcrCall_of_csr (hs : k.ch.scr = 0x0C) (hd : d = 0x00) : wrIcrCall d k = resetCall k := by
  rw [wrIcrCall, hs, if_neg (by decide), if_pos ⟨rfl, hd⟩]

/-- Any other write stores one entry (R616). -/
theorem wrIcrCall_of_store (hid : ¬isIdIndex k.ch.scr.toNat = true) (h : k.ch.scr ≠ 0x0C ∨ d ≠ 0x00) :
    wrIcrCall d k = k.modify fun c => { c with icr := Memory.write c.icr c.scr.toNat d } := by
  have hcsr : ¬(k.ch.scr.toNat = icrCsr ∧ d = 0x00) := fun ⟨hs, hd⟩ =>
    h.elim (fun hne => hne (BitVec.eq_of_toNat_eq hs)) fun hne => hne hd
  rw [wrIcrCall, if_neg hid, if_neg hcsr]

end Icr

/-- Settles O22: a store into canonical storage keeps it canonical and changes one entry. -/
theorem icrWriteStoresOneEntry : Obligations.IcrWriteStoresOneEntry := by
  unfold Obligations.IcrWriteStoresOneEntry
  intro s d
  have hexec : exec (.wrIcr d) s = .next (s.onChannel (wrIcrCall d)) := rfl
  refine ⟨fun hx hbank => State.writeDecodes rfl (Bool.and_eq_true_iff.mpr ⟨hbank, hx⟩), fun hlo hhi => ?_,
    fun hs hd => ?_, fun hrange hne hwf => ?_⟩
  · rw [hexec, State.onChannel, wrIcrCall_of_isIdIndex (isIdIndex_eq_true_iff.mpr ⟨hlo, hhi⟩)]
  · rw [hexec, State.onChannel, wrIcrCall_of_csr hs hd]
    rfl
  · have hid : ¬isIdIndex s.chan.scr.toNat = true := by
      rw [isIdIndex_eq_true_iff]
      omega
    have hch : s.onChannel (wrIcrCall d) = { s with
        chan := { s.chan with icr := Memory.write s.chan.icr s.chan.scr.toNat d }, result := none } := by
      rw [State.onChannel, wrIcrCall_of_store hid hne]
      rfl
    refine ⟨_, hexec.trans (congrArg _ hch), rfl, Memory.wf_write _ d hwf, fun i => ?_⟩
    split
    · next hi =>
      rw [hi]
      exact Memory.read_write_same _ d hwf
    · next hi => exact Memory.read_write_other d hi

end Sys2Proof.Machine
end

section
/-! The MCR write and the modem status it recomputes (R612, R705): the lines in force, their deltas, and the MS source. -/

namespace Sys2Proof.Machine

/-- The modem lines that MSR[7:4] follow: the input latches, or in loopback the output lines (R705). -/
def Channel.linesInForce (c : Channel) : ModemLines where
  dcd := if c.mcr.getLsbD 4 then c.mcr.getLsbD 3 else c.latches.dcd
  ri := if c.mcr.getLsbD 4 then c.mcr.getLsbD 2 else c.latches.ri
  dsr := if c.mcr.getLsbD 4 then c.mcr.getLsbD 0 else c.latches.dsr
  cts := if c.mcr.getLsbD 4 then c.mcr.getLsbD 1 else c.latches.cts

/-- The order of the lines in their four bits (R112). -/
theorem modemLines_getLsbD_bits (m : ModemLines) :
    m.bits.getLsbD 0 = m.cts ∧ m.bits.getLsbD 1 = m.dsr ∧ m.bits.getLsbD 2 = m.ri ∧ m.bits.getLsbD 3 = m.dcd := by
  obtain ⟨dcd, ri, dsr, cts⟩ := m
  revert dcd ri dsr cts
  decide

/-- A line's delta is its change, except that RI counts only when it falls (R705). -/
theorem getLsbD_lineDeltas : ∀ ol nl : BitVec 4,
    (lineDeltas ol nl).getLsbD 0 = (ol.getLsbD 0 != nl.getLsbD 0) ∧
    (lineDeltas ol nl).getLsbD 1 = (ol.getLsbD 1 != nl.getLsbD 1) ∧
    (lineDeltas ol nl).getLsbD 2 = (ol.getLsbD 2 && !nl.getLsbD 2) ∧
    (lineDeltas ol nl).getLsbD 3 = (ol.getLsbD 3 != nl.getLsbD 3) := by decide

theorem nibble_ne_zero_iff : ∀ x : BitVec 4,
    x ≠ 0 ↔ (x.getLsbD 0 || x.getLsbD 1 || x.getLsbD 2 || x.getLsbD 3) = true := by decide

/-- A byte put together from two nibbles, bit by bit. -/
theorem getLsbD_append_nibbles : ∀ hi lo : BitVec 4,
    (hi ++ lo).getLsbD 0 = lo.getLsbD 0 ∧ (hi ++ lo).getLsbD 1 = lo.getLsbD 1 ∧
    (hi ++ lo).getLsbD 2 = lo.getLsbD 2 ∧ (hi ++ lo).getLsbD 3 = lo.getLsbD 3 ∧
    (hi ++ lo).getLsbD 4 = hi.getLsbD 0 ∧ (hi ++ lo).getLsbD 5 = hi.getLsbD 1 ∧
    (hi ++ lo).getLsbD 6 = hi.getLsbD 2 ∧ (hi ++ lo).getLsbD 7 = hi.getLsbD 3 := by decide

namespace Channel
variable (c : Channel)

/-- The deltas a recomputation of the modem status finds (R705). -/
def newDeltas : BitVec 4 := lineDeltas (c.msr.extractLsb' 4 4) c.lineBits

/-- The MSR it leaves: the lines in force, and the old deltas beside the new ones (R705). -/
def recomputedMsr : Byte := c.lineBits ++ (c.msr.extractLsb' 0 4 ||| c.newDeltas)

theorem getLsbD_lineBits :
    c.lineBits.getLsbD 0 = c.linesInForce.cts ∧ c.lineBits.getLsbD 1 = c.linesInForce.dsr ∧
    c.lineBits.getLsbD 2 = c.linesInForce.ri ∧ c.lineBits.getLsbD 3 = c.linesInForce.dcd := by
  have h : c.lineBits = c.linesInForce.bits := by
    unfold lineBits ModemLines.bits linesInForce
    cases c.mcr.getLsbD 4 <;> rfl
  rw [h]
  exact modemLines_getLsbD_bits c.linesInForce

theorem getLsbD_newDeltas :
    c.newDeltas.getLsbD 0 = (c.msr.getLsbD 4 != c.linesInForce.cts) ∧
    c.newDeltas.getLsbD 1 = (c.msr.getLsbD 5 != c.linesInForce.dsr) ∧
    c.newDeltas.getLsbD 2 = (c.msr.getLsbD 6 && !c.linesInForce.ri) ∧
    c.newDeltas.getLsbD 3 = (c.msr.getLsbD 7 != c.linesInForce.dcd) := by
  obtain ⟨hcts, hdsr, hri, hdcd⟩ := c.getLsbD_lineBits
  have hbits := getLsbD_lineDeltas (c.msr.extractLsb' 4 4) c.lineBits
  simp only [BitVec.getLsbD_extractLsb', hcts, hdsr, hri, hdcd] at hbits
  exact hbits

theorem newDeltas_ne_zero_iff : c.newDeltas ≠ 0 ↔
    ((c.msr.getLsbD 4 != c.linesInForce.cts) || (c.msr.getLsbD 5 != c.linesInForce.dsr) ||
      (c.msr.getLsbD 6 && !c.linesInForce.ri) || (c.msr.getLsbD 7 != c.linesInForce.dcd)) = true := by
  obtain ⟨h0, h1, h2, h3⟩ := c.getLsbD_newDeltas
  rw [nibble_ne_zero_iff, h0, h1, h2, h3]

theorem getLsbD_recomputedMsr :
    c.recomputedMsr.getLsbD 4 = c.linesInForce.cts ∧ c.recomputedMsr.getLsbD 5 = c.linesInForce.dsr ∧
    c.recomputedMsr.getLsbD 6 = c.linesInForce.ri ∧ c.recomputedMsr.getLsbD 7 = c.linesInForce.dcd ∧
    c.recomputedMsr.getLsbD 0 = (c.msr.getLsbD 0 || (c.msr.getLsbD 4 != c.linesInForce.cts)) ∧
    c.recomputedMsr.getLsbD 1 = (c.msr.getLsbD 1 || (c.msr.getLsbD 5 != c.linesInForce.dsr)) ∧
    c.recomputedMsr.getLsbD 2 = (c.msr.getLsbD 2 || (c.msr.getLsbD 6 && !c.linesInForce.ri)) ∧
    c.recomputedMsr.getLsbD 3 = (c.msr.getLsbD 3 || (c.msr.getLsbD 7 != c.linesInForce.dcd)) := by
  obtain ⟨hcts, hdsr, hri, hdcd⟩ := c.getLsbD_lineBits
  obtain ⟨d0, d1, d2, d3⟩ := c.getLsbD_newDeltas
  have hbits := getLsbD_append_nibbles c.lineBits (c.msr.extractLsb' 0 4 ||| c.newDeltas)
  simp only [BitVec.getLsbD_or, BitVec.getLsbD_extractLsb', hcts, hdsr, hri, hdcd, d0, d1, d2, d3] at hbits
  obtain ⟨b0, b1, b2, b3, b4, b5, b6, b7⟩ := hbits
  exact ⟨b4, b5, b6, b7, b0, b1, b2, b3⟩

end Channel

/-- The channel whose modem status an MCR write recomputes (R612). -/
def Channel.withMcr (d : Byte) (c : Channel) : Channel := { c with mcr := storedMcr c.cfg.variant d }

/-- The modem status recomputed, but for its source (R705). -/
def Channel.withModemStatus (c : Channel) : Channel := { c with msr := c.recomputedMsr }

section Write
variable (d : Byte) (k : Call)

/-- An MCR write raises the MS source where it finds a delta (R612, R705). -/
theorem wrMcrCall_of_delta (h : (k.ch.withMcr d).newDeltas ≠ 0) :
    wrMcrCall d k = trigger srcMs (k.modify fun c => (c.withMcr d).withModemStatus) := if_pos h

/-- Without a delta it stores the two registers only. -/
theorem wrMcrCall_of_no_delta (h : (k.ch.withMcr d).newDeltas = 0) :
    wrMcrCall d k = k.modify fun c => (c.withMcr d).withModemStatus := if_neg (not_not_intro h)

theorem wrMcrCall_msr : (wrMcrCall d k).ch.msr = (k.ch.withMcr d).recomputedMsr := by
  by_cases h : (k.ch.withMcr d).newDeltas = 0
  · rw [wrMcrCall_of_no_delta d k h]
    rfl
  · rw [wrMcrCall_of_delta d k h]
    rfl

end Write

/-- Settles O21: the stored byte is part of the channel whose modem status is recomputed. -/
theorem mcrWriteRecomputesModemStatus : Obligations.McrWriteRecomputesModemStatus := by
  unfold Obligations.McrWriteRecomputesModemStatus
  intro s d
  have hdelta := (s.chan.withMcr d).newDeltas_ne_zero_iff
  refine ⟨fun hbank => State.writeDecodes rfl (congrArg (!·) hbank), s.onChannel (wrMcrCall d),
    _, _, _, _, _, _, _, _, _, rfl, rfl, rfl, rfl, rfl, rfl, rfl, rfl, rfl, rfl, ?_⟩
  rw [State.onChannel_chan, wrMcrCall_msr]
  obtain ⟨h4, h5, h6, h7, h0, h1, h2, h3⟩ := (s.chan.withMcr d).getLsbD_recomputedMsr
  refine ⟨h4, h5, h6, h7, h0, h1, h2, h3, fun hchg => ?_, fun hchg => ?_⟩
  · have hw := wrMcrCall_of_delta d ⟨s.chan, s.events, none⟩ (hdelta.mpr hchg)
    rw [State.quiet_onChannel_of_no_dataCalls (by simp [hw]), hw]
    rfl
  · have hnone : (s.chan.withMcr d).newDeltas = 0 :=
      not_ne_iff.mp fun h => Bool.eq_false_iff.mp hchg (hdelta.mp h)
    have hw := wrMcrCall_of_no_delta d ⟨s.chan, s.events, none⟩ hnone
    rw [State.onChannel, hw]
    rfl

end Sys2Proof.Machine
end

section
/-! FCR and its flushes (R605, R913, R914): which sides a write flushes, and what the flushed sides hold after it. -/

namespace Sys2Proof.Machine

/-- The receive side is flushed where FCR[0] changes, and where its clear bit stands while the discipline stays on
(R605). -/
def flushesRx (old : Bool) (d : Byte) : Bool := (d.getLsbD 0 != old) || (d.getLsbD 0 && d.getLsbD 1)

/-- The same of the transmit side. -/
def flushesTx (old : Bool) (d : Byte) : Bool := (d.getLsbD 0 != old) || (d.getLsbD 0 && d.getLsbD 2)

/-- The self-clearing bits are not the discipline's (R605). -/
theorem storedFcr_getLsbD_zero : ∀ d : Byte, (storedFcr d).getLsbD 0 = d.getLsbD 0 := by decide

/-- The two flags with THRE at `a`, and TEMT at whether the TSR is idle (R903). -/
theorem setBit_tx_flags : ∀ (v : Byte) (a busy : Bool), setBit (setBit v 5 a) 6 (!busy) =
    (v &&& 0x9F) ||| (if a then 0x20 else 0x00) ||| (if busy then 0x00 else 0x40) := by decide

theorem getLsbD_five_of_dr_cleared : ∀ v : Byte, (v &&& 0xFE).getLsbD 5 = v.getLsbD 5 := by decide

/-- The receive side flushed or not (R913). -/
def Channel.rxFlushedIf (f : Bool) (c : Channel) : Channel := { c with
  rx := if f then ⟨c.rx.buf, 0, 0, 0⟩ else c.rx
  lsr := if f then c.lsr &&& 0xFE else c.lsr
  toArmed := if f then false else c.toArmed
  toCnt := if f then 0 else c.toCnt
  pending := if f then c.pending &&& 0x0E else c.pending }

theorem Channel.rxFlushedIf_fifoOn (f : Bool) (c : Channel) : (c.rxFlushedIf f).fifoOn = c.fifoOn := rfl

/-- A receive flush leaves THRE (R913). -/
theorem Channel.rxFlushedIf_lsr_thre (f : Bool) (c : Channel) :
    (c.rxFlushedIf f).lsr.getLsbD 5 = c.lsr.getLsbD 5 := by
  cases f with
  | false => rfl
  | true => exact getLsbD_five_of_dr_cleared c.lsr

section Flushes
variable (f : Bool) (k : Call)

theorem rxFlush_of_flag : (if f then rxFlush k else k) = k.modify (Channel.rxFlushedIf f) := by
  cases f with
  | false => rfl
  | true =>
    unfold Channel.rxFlushedIf
    simp only [if_true, ← setBit_dr_false]
    rfl

/-- With nothing queued THRE says whether the discipline is the FIFO's or the TSR is idle, TEMT the latter (R903). -/
theorem lsrWithTxFlags_of_nothing_queued {c : Channel} (hc : c.tx.count = 0) (hp : c.thrPending = false) :
    c.holdingEmpty = (c.fifoOn || !c.tsrBusy) ∧ c.lsrWithTxFlags = (c.lsr &&& 0x9F) |||
      (if c.fifoOn || !c.tsrBusy then 0x20 else 0x00) ||| (if c.tsrBusy then 0x00 else 0x40) := by
  have hh : c.holdingEmpty = (c.fifoOn || !c.tsrBusy) := by
    cases hf : c.fifoOn <;> simp [Channel.holdingEmpty, hf, hc, hp]
  have ht : c.transmitterEmpty = !c.tsrBusy := by
    cases hf : c.fifoOn <;> simp [Channel.transmitterEmpty, hh, hf]
  rw [Channel.lsrWithTxFlags, hh, ht, setBit_tx_flags]
  exact ⟨rfl, rfl⟩

/-- `UpdateTxFlags` with a recomputation behind it (R903, R804). -/
theorem recompute_updateTxFlags_ch : (recompute (updateTxFlags k)).ch = { k.ch with
    lsr := k.ch.lsrWithTxFlags
    pending := if k.ch.holdingEmpty = true ∧ k.ch.lsr.getLsbD 5 = false then k.ch.pending ||| 0x02
      else k.ch.pending }.identified := by
  have hiff : (!k.ch.lsr.getLsbD 5 && k.ch.holdingEmpty) = true ↔
      k.ch.holdingEmpty = true ∧ k.ch.lsr.getLsbD 5 = false := by
    rw [Bool.and_eq_true, Bool.not_eq_true', and_comm]
  rw [recompute_ch, updateTxFlags_ch]
  by_cases h : k.ch.holdingEmpty = true ∧ k.ch.lsr.getLsbD 5 = false
  · rw [if_pos h, if_pos (hiff.mpr h)]
    rfl
  · rw [if_neg h, if_neg (mt hiff.mp h)]

/-- The transmit side after a write that flushes it or not, and the recomputation that ends the write (R914). -/
theorem recompute_txFlush_of_flag : (recompute (if f then txFlush k else k)).ch = { k.ch with
    tx := if f then ⟨k.ch.tx.buf, 0, 0, 0⟩ else k.ch.tx
    thrPending := if f then false else k.ch.thrPending
    lsr :=
      if f then (k.ch.lsr &&& 0x9F) ||| (if k.ch.fifoOn || !k.ch.tsrBusy then 0x20 else 0x00) |||
        (if k.ch.tsrBusy then 0x00 else 0x40)
      else k.ch.lsr
    pending :=
      if f = true ∧ (k.ch.fifoOn || !k.ch.tsrBusy) = true ∧ k.ch.lsr.getLsbD 5 = false then k.ch.pending ||| 0x02
      else k.ch.pending }.identified := by
  cases f with
  | false => rfl
  | true =>
    obtain ⟨hh, hl⟩ := lsrWithTxFlags_of_nothing_queued
      (c := { k.ch with tx := k.ch.tx.flush, thrPending := false }) rfl rfl
    rw [if_pos rfl, txFlush, recompute_updateTxFlags_ch, Call.modify_ch, hh, hl]
    simp only [if_true, true_and]
    rfl

end Flushes

theorem fifoCap_of_depth_ne_zero {v : Variant} (h : v.depth ≠ 0) : v.fifoCap = true := by
  cases v with
  | V8250 | V16450 => exact absurd rfl h
  | V16550 | V16650 | V16750 | V16950 => rfl

section Write
variable {d : Byte} {k : Call}

/-- The flushes of an FCR write, a flag for each side (R605). -/
theorem fcrFlushes_eq (h : k.ch.fcr = storedFcr d) (old : Bool) : fcrFlushes old d k =
    if flushesTx old d then txFlush (if flushesRx old d then rxFlush k else k)
    else if flushesRx old d then rxFlush k else k := by
  rw [fcrFlushes, h, storedFcr_getLsbD_zero, flushesRx, flushesTx]
  cases hchg : d.getLsbD 0 != old with
  | true => rfl
  | false => cases hon : d.getLsbD 0 <;> rfl

/-- With a FIFO an FCR write stores the byte, flushes the sides its flags name, and recomputes (R605). -/
theorem wrFcrCall_of_depth_ne_zero (h : k.ch.depth ≠ 0) : wrFcrCall d k = recompute
    (if flushesTx (k.ch.fcr.getLsbD 0) d then
      txFlush ((storeFcr (storedFcr d) k).modify (Channel.rxFlushedIf (flushesRx (k.ch.fcr.getLsbD 0) d)))
    else (storeFcr (storedFcr d) k).modify (Channel.rxFlushedIf (flushesRx (k.ch.fcr.getLsbD 0) d))) := by
  have hw : wrFcrCall d k = recompute (fcrFlushes (k.ch.fcr.getLsbD 0) d (storeFcr (storedFcr d) k)) := if_neg h
  rw [hw, fcrFlushes_eq rfl, rxFlush_of_flag]

/-- The discipline after the write is the byte's own (R900). -/
theorem storeFcr_fifoOn (h : k.ch.depth ≠ 0) : (storeFcr (storedFcr d) k).ch.fifoOn = d.getLsbD 0 := by
  have hcap : (storeFcr (storedFcr d) k).ch.cfg.variant.fifoCap = true := fifoCap_of_depth_ne_zero h
  rw [Channel.fifoOn, hcap, Bool.true_and]
  exact storedFcr_getLsbD_zero d

variable (d k)

theorem wrFcrCall_dataCalls : dataCalls (wrFcrCall d k).events = dataCalls k.events := by
  obtain h | h | ⟨-, h | h | h⟩ := wrFcrCall_cases d k <;> simp [h, storeFcr]

theorem wrFcrCall_result : (wrFcrCall d k).result = k.result := by
  obtain h | h | ⟨-, h | h | h⟩ := wrFcrCall_cases d k <;> simp [h, storeFcr]

end Write

/-- Settles O20: the flushes are those of the two flags, and the receive flush leaves what the transmit flush reads. -/
theorem fcrWriteStoresAndFlushes : Obligations.FcrWriteStoresAndFlushes := by
  unfold Obligations.FcrWriteStoresAndFlushes
  intro s d
  have hexec : exec (.wrFcr d) s = .next (s.onChannel (wrFcrCall d)) := rfl
  refine ⟨fun hbank => State.writeDecodes rfl (congrArg (!·) hbank), fun h => ?_, fun h => ?_⟩
  · rw [hexec, State.onChannel, wrFcrCall_of_depth_eq_zero h]
  · refine ⟨s.onChannel (wrFcrCall d), _, _, _, _, _, hexec, rfl, rfl, rfl, rfl, rfl, ?_⟩
    rw [State.quiet_onChannel_of_no_dataCalls (wrFcrCall_dataCalls d _), State.onChannel_chan, wrFcrCall_result,
      wrFcrCall_of_depth_ne_zero h, recompute_txFlush_of_flag, Call.modify_ch, Channel.rxFlushedIf_fifoOn,
      Channel.rxFlushedIf_lsr_thre, storeFcr_fifoOn h]
    rfl

end Sys2Proof.Machine
end

section
/-! The status registers (R701 to R704): LSR and MSR, each with a read that clears bits and their source, and a forced
write that raises sources. -/

namespace Sys2Proof.Machine

/-- Offset 5 is LSR's unless the variant's ICR stands there (R305). -/
theorem icr_absent_at_lsr {c : Channel} (h : ¬(c.cfg.variant.x950 = true ∧ c.bank650 = true)) :
    (!(c.bank650 && c.cfg.variant.x950)) = true := by
  rwa [and_comm, ← Bool.and_eq_true, Bool.not_eq_true, ← Bool.not_eq_true'] at h

/-- What an LSR read does to the channel (R701, R802): OE, PE, FE, BI and the RLS source go. -/
theorem rdLsrCall_ch (k : Call) : (rdLsrCall k).ch =
    { k.ch with lsr := k.ch.lsr &&& 0xE1, pending := k.ch.pending &&& 0x1B }.identified := rfl

@[simp] theorem rdLsrCall_dataCalls (k : Call) : dataCalls (rdLsrCall k).events = dataCalls k.events := by
  simp [rdLsrCall]

/-- Settles O23: the result is taken before the clear, and the only callback is the recomputation's. -/
theorem lsrReadClearsTheErrorBits : Obligations.LsrReadClearsTheErrorBits := by
  unfold Obligations.LsrReadClearsTheErrorBits
  intro s
  refine ⟨fun hbank => State.readDecodes rfl (icr_absent_at_lsr hbank), s.onChannel rdLsrCall, rfl, ?_⟩
  rw [State.quiet_onChannel_of_no_dataCalls (rdLsrCall_dataCalls _), rdLsrCall_ch]
  rfl

/-- The forced sources in terms of the masks of the forced bits (R702). -/
theorem forcedLsrSources_eq : ∀ d : Byte, forcedLsrSources d =
    (if d.getLsbD 0 then 0x01 else 0x00) ||| (if d &&& 0x1E ≠ 0x00 then 0x04 else 0x00) := by decide

/-- A forced write raises a source exactly where it forces a bit to 1 (R702). -/
theorem forcedLsrSources_ne_zero_iff : ∀ d : Byte, forcedLsrSources d ≠ 0 ↔ d &&& 0x1F ≠ 0x00 := by decide

section WriteLsr
variable {d : Byte} {k : Call}

/-- Forced zeros clear the low five bits of LSR and nothing else (R702). -/
theorem wrLsrCall_of_zeros (h : d &&& 0x1F = 0x00) :
    wrLsrCall d k = k.modify fun c => { c with lsr := c.lsr &&& 0xE0 } := by
  have hforced (v : Byte) : forcedLsr v d = v &&& 0xE0 := by
    rw [forcedLsr, h]
    exact BitVec.or_zero ..
  have hsources : ¬forcedLsrSources d ≠ 0 := fun hs => (forcedLsrSources_ne_zero_iff d).mp hs h
  simp only [wrLsrCall, if_neg hsources, hforced]

/-- With a bit forced to 1 the write triggers its sources on the channel with the LSR forced (R702). -/
theorem wrLsrCall_of_ones (h : d &&& 0x1F ≠ 0x00) : wrLsrCall d k =
    trigger (forcedLsrSources d) (k.modify fun c => { c with lsr := forcedLsr c.lsr d }) :=
  if_pos ((forcedLsrSources_ne_zero_iff d).mpr h)

end WriteLsr

/-- Settles O24: the sources forced are none exactly where no bit is forced to 1. -/
theorem lsrWriteForcesTheLowFiveBits : Obligations.LsrWriteForcesTheLowFiveBits := by
  unfold Obligations.LsrWriteForcesTheLowFiveBits
  intro s d
  have hexec : exec (.wrLsr d) s = .next (s.onChannel (wrLsrCall d)) := rfl
  refine ⟨fun hbank => State.writeDecodes rfl (icr_absent_at_lsr hbank), fun hzeros => ?_, fun hones => ?_⟩
  · rw [hexec, State.onChannel, wrLsrCall_of_zeros hzeros]
    rfl
  · have hw := wrLsrCall_of_ones (k := ⟨s.chan, s.events, none⟩) hones
    refine ⟨_, s.chan.pending ||| forcedLsrSources d, hexec, ?_, ?_⟩
    · rw [forcedLsrSources_eq, BitVec.or_assoc]
    · rw [State.quiet_onChannel_of_no_dataCalls (by simp [hw]), hw]
      rfl

/-- What an MSR read does to the channel (R703, R802): the deltas and the MS source go. -/
theorem rdMsrCall_ch (k : Call) : (rdMsrCall k).ch =
    { k.ch with msr := k.ch.msr &&& 0xF0, pending := k.ch.pending &&& 0x17 }.identified := rfl

@[simp] theorem rdMsrCall_dataCalls (k : Call) : dataCalls (rdMsrCall k).events = dataCalls k.events := by
  simp [rdMsrCall]

theorem lowNibble_eq_zero_iff : ∀ d : Byte, d.extractLsb' 0 4 = 0 ↔ d &&& 0x0F = 0x00 := by decide

section WriteMsr
variable {d : Byte} {k : Call}

/-- Without a delta a forced MSR write stores the byte only (R704). -/
theorem wrMsrCall_of_no_delta (h : d &&& 0x0F = 0x00) : wrMsrCall d k = k.modify fun c => { c with msr := d } :=
  if_neg (not_not_intro ((lowNibble_eq_zero_iff d).mpr h))

/-- With one it raises the MS source (R704). -/
theorem wrMsrCall_of_delta (h : d &&& 0x0F ≠ 0x00) :
    wrMsrCall d k = trigger srcMs (k.modify fun c => { c with msr := d }) :=
  if_pos (mt (lowNibble_eq_zero_iff d).mp h)

end WriteMsr

/-- Settles O25: both rows decode in every state, and the write's low nibble decides whether anything is recomputed. -/
theorem msrReadAndForcedWrite : Obligations.MsrReadAndForcedWrite := by
  unfold Obligations.MsrReadAndForcedWrite
  intro s d
  have hexec : exec (.wrMsr d) s = .next (s.onChannel (wrMsrCall d)) := rfl
  refine ⟨State.readDecodes rfl rfl, State.writeDecodes rfl rfl, ⟨s.onChannel rdMsrCall, rfl, ?_⟩,
    fun hzero => ?_, fun hdelta => ⟨_, hexec, ?_⟩⟩
  · rw [State.quiet_onChannel_of_no_dataCalls (rdMsrCall_dataCalls _), rdMsrCall_ch]
    rfl
  · rw [hexec, State.onChannel, wrMsrCall_of_no_delta hzero]
    rfl
  · have hw := wrMsrCall_of_delta (k := ⟨s.chan, s.events, none⟩) hdelta
    rw [State.quiet_onChannel_of_no_dataCalls (by simp [hw]), hw]
    rfl

end Sys2Proof.Machine
end

section
/-! Which operation owns which register (10_state.md sections 3 and 4, R705). A table gives the registers an operation
leaves in terms of those before it (`ownWrites`); every operation but a reset follows the table, because the pipeline's
procedures touch no register but RBR and THR. -/

namespace Sys2Proof.Machine

/-- The registers of a channel that one operation owns, with the bank latch (R104 to R118). LSR and the
identification have several writers and are no part of it. -/
structure Registers where
  rbr : Byte
  thr : Byte
  ier : Byte
  fcr : Byte
  lcr : Byte
  mcr : Byte
  msr : Byte
  scr : Byte
  dll : Byte
  dlm : Byte
  bank650 : Bool
  efr : Byte
  xon1 : Byte
  icr : Memory

/-- The registers as they stand in the channel. -/
def Channel.registers (c : Channel) : Registers where
  rbr := c.rbr
  thr := c.thr
  ier := c.ier
  fcr := c.fcr
  lcr := c.lcr
  mcr := c.mcr
  msr := c.msr
  scr := c.scr
  dll := c.dll
  dlm := c.dlm
  bank650 := c.bank650
  efr := c.efr
  xon1 := c.xon1
  icr := c.icr

/-- The registers `r` with what the operation writes of them. Where the value written depends on more than the
operation, it is the one in `r'`. A reset writes them all. -/
def ownWrites (i : Instr) (r r' : Registers) : Registers :=
  match i with
  | .reset => r'
  | .tick => { r with rbr := r'.rbr }
  | .wrThr d => { r with thr := d }
  | .wrIer _ => { r with ier := r'.ier }
  | .wrFcr _ => { r with fcr := r'.fcr }
  | .wrLcr d => { r with bank650 := false, lcr := d }
  | .wrLcrBank => { r with bank650 := true }
  | .wrMcr _ => { r with mcr := r'.mcr, msr := r'.msr }
  | .rdMsr => { r with msr := r.msr &&& 0xF0 }
  | .wrMsr d => { r with msr := d }
  | .wrScr d => { r with scr := d }
  | .wrDll d => { r with dll := d }
  | .wrDlm d => { r with dlm := d }
  | .wrEfr d => { r with efr := d }
  | .wrXon1 d => { r with xon1 := d }
  | .wrIcr _ => { r with icr := r'.icr }
  | _ => r

/-- Reading the table by registers: each is written by its owner only, and the bank latch goes each way by one
operation. -/
theorem ownWrites_owners {i : Instr} (hi : i ≠ .reset) (r r' : Registers) :
    ((ownWrites i r r').rbr ≠ r.rbr → i = .tick) ∧
    ((ownWrites i r r').fcr ≠ r.fcr → ∃ d, i = .wrFcr d) ∧
    ((ownWrites i r r').scr ≠ r.scr → ∃ d, i = .wrScr d) ∧
    ((ownWrites i r r').lcr ≠ r.lcr → ∃ d, i = .wrLcr d) ∧
    ((ownWrites i r r').mcr ≠ r.mcr → ∃ d, i = .wrMcr d) ∧
    ((ownWrites i r r').ier ≠ r.ier → ∃ d, i = .wrIer d) ∧
    ((ownWrites i r r').thr ≠ r.thr → ∃ d, i = .wrThr d) ∧
    ((ownWrites i r r').msr ≠ r.msr → i = .rdMsr ∨ (∃ d, i = .wrMsr d) ∨ ∃ d, i = .wrMcr d) ∧
    ((ownWrites i r r').efr ≠ r.efr → ∃ d, i = .wrEfr d) ∧
    ((ownWrites i r r').xon1 ≠ r.xon1 → ∃ d, i = .wrXon1 d) ∧
    ((ownWrites i r r').dll ≠ r.dll → ∃ d, i = .wrDll d) ∧
    ((ownWrites i r r').dlm ≠ r.dlm → ∃ d, i = .wrDlm d) ∧
    ((ownWrites i r r').icr ≠ r.icr → ∃ d, i = .wrIcr d) ∧
    (r.bank650 = false → (ownWrites i r r').bank650 = true → i = .wrLcrBank) ∧
    (r.bank650 = true → (ownWrites i r r').bank650 = false → ∃ d, i = .wrLcr d) := by
  cases i with
  | reset => exact absurd rfl hi
  | _ => simp +contextual [ownWrites]

section Procedures
variable (k : Call) (c : Channel) (b : Byte)

@[simp] theorem recompute_registers : (recompute k).ch.registers = k.ch.registers := rfl
@[simp] theorem trigger_registers (src : BitVec 5) : (trigger src k).ch.registers = k.ch.registers := rfl
@[simp] theorem clear_registers (src : BitVec 5) : (clear src k).ch.registers = k.ch.registers := rfl
@[simp] theorem rxFlush_registers : (rxFlush k).ch.registers = k.ch.registers := rfl

/-- The registers are no part of the transmitter. -/
theorem Channel.OnlyTransmitter.registers_eq {c c' : Channel} (h : c.OnlyTransmitter c') :
    c'.registers = c.registers := by
  unfold Channel.OnlyTransmitter at h
  rw [h]
  rfl

@[simp] theorem updateTxFlags_registers : (updateTxFlags k).ch.registers = k.ch.registers :=
  (updateTxFlags_onlyTransmitter k).registers_eq

@[simp] theorem txFlush_registers : (txFlush k).ch.registers = k.ch.registers := updateTxFlags_registers _

@[simp] theorem startOrWait_registers : (startOrWait b c).registers = c.registers := by
  unfold startOrWait
  split <;> rfl

@[simp] theorem queueTx_registers : (queueTx b c).registers = c.registers := by
  unfold queueTx
  split <;> rfl

@[simp] theorem startIfIdle_registers : (startIfIdle c).registers = c.registers := by
  unfold startIfIdle
  split
  · rfl
  · exact (txStartFromFifo_onlyTransmitter c).registers_eq

/-- A THR write stores the byte in both disciplines (R905, R906). -/
theorem wrThrCall_registers : (wrThrCall b k).ch.registers = { k.ch.registers with thr := b } := by
  unfold wrThrCall
  split
  · rw [txWriteFifo_eq, updateTxFlags_registers, Call.modify_ch, startIfIdle_registers, Call.modify_ch,
      queueTx_registers]
    rfl
  · rw [txWriteUnbuf_eq, updateTxFlags_registers, Call.modify_ch, startOrWait_registers]
    rfl

theorem txServiceStep_registers : (txServiceStep k).ch.registers = k.ch.registers := by
  unfold txServiceStep
  dsimp only
  split
  · split
    · exact (txComplete_onlyTransmitter _).registers_eq
    · rfl
  · rfl

theorem divisorReprogram_registers : (divisorReprogram k).ch.registers = k.ch.registers := by
  obtain ⟨c, h, he⟩ := divisorReprogram_cases k
  rw [he]
  exact h.registers_eq

theorem rxPop_registers : (rxPop k).ch.registers = k.ch.registers := by
  rw [rxPop_ch]
  rfl

theorem timeoutStep_registers : (timeoutStep k).ch.registers = k.ch.registers := by
  rw [timeoutStep_ch]
  split
  · split <;> rfl
  · rfl

theorem rxAcceptFifo_registers : (rxAcceptFifo b k).ch.registers = k.ch.registers := by
  unfold rxAcceptFifo
  dsimp only
  split
  · rfl
  · split <;> rfl

/-- An unbuffered byte goes into RBR or is lost (R909). -/
theorem rxAcceptUnbuf_registers :
    (rxAcceptUnbuf b k).ch.registers = { k.ch.registers with rbr := (rxAcceptUnbuf b k).ch.rbr } := by
  unfold rxAcceptUnbuf
  split <;> rfl

end Procedures

/-- The registers of a channel are `r`, but for RBR. -/
def Channel.HasButRbr (r : Registers) (c : Channel) : Prop := c.registers = { r with rbr := c.rbr }

theorem Channel.HasButRbr.congr {r : Registers} {c c' : Channel} (h : c.HasButRbr r)
    (he : c'.registers = c.registers) : c'.HasButRbr r := by
  have hrbr : c'.rbr = c.rbr := congrArg Registers.rbr he
  rw [HasButRbr, he, hrbr]
  exact h

theorem rxServiceStep_hasButRbr {r : Registers} (k : Call) (h : k.ch.HasButRbr r) :
    (rxServiceStep k).ch.HasButRbr r := by
  have hcall : (callRx k).ch.HasButRbr r := h
  unfold rxServiceStep rxAccept
  split
  · exact hcall
  · split
    · exact hcall.congr (rxAcceptFifo_registers ..)
    · rw [Channel.HasButRbr, rxAcceptUnbuf_registers, hcall]

/-- A tick writes no register but RBR (R909, R1005). -/
theorem tickCall_registers (k : Call) : (tickCall k).ch.HasButRbr k.ch.registers :=
  tickCall_keeps (fun k' h => h.congr (timeoutStep_registers k')) rxServiceStep_hasButRbr
    (fun k' h => h.congr (txServiceStep_registers k')) (fun _ _ h => h.congr rfl) k rfl

/-- An FCR write writes FCR only: its flushes touch no register of the table (R605, R913, R914). -/
theorem wrFcrCall_registers (d : Byte) (k : Call) :
    (wrFcrCall d k).ch.registers = { k.ch.registers with fcr := (wrFcrCall d k).ch.registers.fcr } := by
  obtain h | h | ⟨-, h | h | h⟩ := wrFcrCall_cases d k <;>
    simp only [h, recompute_registers, txFlush_registers, rxFlush_registers] <;> rfl

/-- An ICR write that is no soft reset writes the ICR only (R616). -/
theorem wrIcrCall_registers {d : Byte} {k : Call} (h : ¬(d = 0x00 ∧ k.ch.scr = 0x0C)) :
    (wrIcrCall d k).ch.registers = { k.ch.registers with icr := (wrIcrCall d k).ch.icr } := by
  by_cases hid : isIdIndex k.ch.scr.toNat = true
  · rw [wrIcrCall_of_isIdIndex hid]
    rfl
  · have hstore : k.ch.scr ≠ 0x0C ∨ d ≠ 0x00 := (not_and_or.mp h).symm
    rw [wrIcrCall_of_store hid hstore]
    rfl

/-- Every operation but a reset writes the registers by the table. -/
theorem channelCall_registers {i : Instr} {k : Call} (hcsr : ¬(i = .wrIcr 0x00 ∧ k.ch.scr = 0x0C)) :
    (channelCall i k).ch.registers = ownWrites i k.ch.registers (channelCall i k).ch.registers := by
  cases i with
  | rdRbrFifo => exact rxPop_registers k
  | wrThr d => exact wrThrCall_registers k d
  | wrDll d | wrDlm d => exact divisorReprogram_registers _
  | wrFcr d => exact wrFcrCall_registers d k
  | wrIcr d => exact wrIcrCall_registers fun ⟨hd, hs⟩ => hcsr ⟨congrArg _ hd, hs⟩
  | tick => exact tickCall_registers k
  | wrIer d =>
    simp only [channelCall, wrIerCall_eq]
    rfl
  | rdIir =>
    simp only [channelCall, rdIirCall]
    split <;> rfl
  | wrMcr d =>
    simp only [channelCall, wrMcrCall, modemStatusRecompute]
    split <;> rfl
  | wrLsr d =>
    simp only [channelCall, wrLsrCall]
    split <;> rfl
  | wrMsr d =>
    simp only [channelCall, wrMsrCall]
    split <;> rfl
  | _ => rfl

/-- What an operation does to the stand-alone channel is its call; a composite's operation does nothing to it
(R1106). -/
theorem exec_chan {i : Instr} {s t : State} (h : exec i s = .next t) :
    t.chan = (channelCall i ⟨s.chan, s.events, none⟩).ch := by
  cases i with
  | ctick | creset =>
    cases h
    exact State.onEveryChild_chan ..
  | _ =>
    cases h
    rfl

/-- Settles O28: every operation but a reset follows the table, and the table names each register's owner. -/
theorem onlyTheirOwnersWriteTheRegisters : Obligations.OnlyTheirOwnersWriteTheRegisters := by
  unfold Obligations.OnlyTheirOwnersWriteTheRegisters
  intro i s t h hi hcsr
  have hregs := channelCall_registers (k := ⟨s.chan, s.events, none⟩) hcsr
  rw [← exec_chan h] at hregs
  have howners := ownWrites_owners hi s.chan.registers t.chan.registers
  rw [← hregs] at howners
  exact howners

end Sys2Proof.Machine
end

section
/-! The identification (R803 to R805): which sources are delivered, and the fixed priority among them. -/

namespace Sys2Proof.Machine

section Identification
variable (p : BitVec 5) (ier : Byte)

/-- A source is delivered where it is pending and enabled (R803). -/
theorem getLsbD_deliveredSet {b : Nat} (hb : b < 4) :
    (deliveredSet p ier).getLsbD b = (p.getLsbD b && ier.getLsbD b) := by
  simp [deliveredSet, hb]

/-- The line is asserted where one of the four sources is delivered (R804). -/
theorem interruptLevel_iff :
    interruptLevel p ier = true ↔ ∃ b, b < 4 ∧ p.getLsbD b = true ∧ ier.getLsbD b = true := by
  rw [interruptLevel, bne_iff_ne]
  constructor
  · intro hne
    by_contra hnone
    refine hne (BitVec.eq_of_getLsbD_eq fun b hb => ?_)
    have hno : ¬(p.getLsbD b && ier.getLsbD b) = true := fun h => hnone ⟨b, hb, Bool.and_eq_true_iff.mp h⟩
    rw [getLsbD_deliveredSet p ier hb, Bool.eq_false_iff.mpr hno]
    exact BitVec.getLsbD_zero.symm
  · rintro ⟨b, hb, hp, hi⟩ h0
    have hd := getLsbD_deliveredSet p ier hb
    simp [h0, hp, hi] at hd

/-- With nothing delivered there is no source (R804). -/
theorem identification_of_level_false (h : interruptLevel p ier = false) : identification p ier = 0b0001 := by
  rw [interruptLevel, bne_eq_false_iff_eq] at h
  exact if_pos h

/-- With something delivered the identification goes by the fixed priority RLS, RDA, THRE, MS (R805). -/
theorem identification_of_level_true (h : interruptLevel p ier = true) : identification p ier =
    if p.getLsbD 2 = true ∧ ier.getLsbD 2 = true then 0b0110
    else if p.getLsbD 0 = true ∧ ier.getLsbD 0 = true then (if p.getLsbD 4 then 0b1100 else 0b0100)
    else if p.getLsbD 1 = true ∧ ier.getLsbD 1 = true then 0b0010
    else 0b0000 := by
  rw [interruptLevel, bne_iff_ne] at h
  simp only [identification, if_neg h, getLsbD_deliveredSet p ier (show 2 < 4 by decide),
    getLsbD_deliveredSet p ier (show 0 < 4 by decide), getLsbD_deliveredSet p ier (show 1 < 4 by decide),
    Bool.and_eq_true]

end Identification

/-- Settles O26: the recomputation is the identification and the level of the two registers it reads. -/
theorem recomputeIdentifiesByPriority : Obligations.RecomputeIdentifiesByPriority := by
  unfold Obligations.RecomputeIdentifiesByPriority
  intro k
  have hlevel (b : Nat) (hb : b < 4) (h : k.ch.pending.getLsbD b = true ∧ k.ch.ier.getLsbD b = true) :=
    identification_of_level_true _ _ ((interruptLevel_iff k.ch.pending k.ch.ier).mpr ⟨b, hb, h⟩)
  refine ⟨rfl, rfl, rfl, interruptLevel_iff _ _, identification_of_level_false _ _, fun h2 => ?_,
    fun h2 h0 => ?_, fun h2 h0 h1 => ?_, fun h2 h0 h1 h3 => ?_⟩
  · exact (hlevel 2 (by decide) h2).trans (if_pos h2)
  · exact (hlevel 0 (by decide) h0).trans ((if_neg h2).trans (if_pos h0))
  · exact (hlevel 1 (by decide) h1).trans ((if_neg h2).trans ((if_neg h0).trans (if_pos h1)))
  · exact (hlevel 3 (by decide) h3).trans ((if_neg h2).trans ((if_neg h0).trans (if_neg h1)))

end Sys2Proof.Machine
end

section
/-! What the operations do to the arbiter (R801 to R811). A table gives the sources an operation may clear
(`mayClear`); every operation leaves the others pending, sets the character-timeout marker only together with RDA in
the FIFO discipline, and ends with the identification right if it began so (`Channel.Arbitrates`). -/

namespace Sys2Proof.Machine

/-- What the interrupt arbiter reads and writes (R803, R804), with the discipline the marker depends on (R811). -/
structure Arbiter where
  pending : BitVec 5
  ier : Byte
  iirId : BitVec 4
  intLine : Bool
  fifoOn : Bool

/-- The arbiter's part of the channel. -/
def Channel.arbiter (c : Channel) : Arbiter where
  pending := c.pending
  ier := c.ier
  iirId := c.iirId
  intLine := c.intLine
  fifoOn := c.fifoOn

/-- Between two channels only the transmitter's registers differ: what loading and queueing a byte may touch (R904 to
R907), without the flags. -/
def Channel.OnlyQueues (c c' : Channel) : Prop :=
  c' = { c with
    tsrBusy := c'.tsrBusy, tsrByte := c'.tsrByte, txBits := c'.txBits, thrPending := c'.thrPending, tx := c'.tx }

section Queues
variable (c : Channel) (v : Byte)

theorem txStartFromFifo_onlyQueues : c.OnlyQueues (txStartFromFifo c) := by
  unfold txStartFromFifo
  split <;> rfl

theorem loadNext_onlyQueues : c.OnlyQueues (loadNext c) := by
  unfold loadNext
  split
  · exact txStartFromFifo_onlyQueues c
  · split <;> rfl

theorem startOrWait_onlyQueues : c.OnlyQueues (startOrWait v c) := by
  unfold startOrWait
  split <;> rfl

theorem queueTx_onlyQueues : c.OnlyQueues (queueTx v c) := by
  unfold queueTx
  split <;> rfl

theorem startIfIdle_onlyQueues : c.OnlyQueues (startIfIdle c) := by
  unfold startIfIdle
  split
  · rfl
  · exact txStartFromFifo_onlyQueues c

variable {c} {c' : Channel}

theorem Channel.OnlyQueues.arbiter_eq (h : c.OnlyQueues c') : c'.arbiter = c.arbiter := by
  unfold Channel.OnlyQueues at h
  rw [h]
  rfl

theorem Channel.OnlyQueues.lsr_eq (h : c.OnlyQueues c') : c'.lsr = c.lsr := by
  unfold Channel.OnlyQueues at h
  rw [h]

end Queues

/-- Between two channels no source outside `src` goes, and the marker stays beside RDA (R807, R811) provided that RDA
goes without the marker only in the unbuffered discipline. -/
structure Channel.MovesSources (src : BitVec 5) (c c' : Channel) : Prop where
  keeps  : ∀ b, c.pending.getLsbD b = true → src.getLsbD b = false → c'.pending.getLsbD b = true
  marker : (src.getLsbD 0 = true → src.getLsbD 4 = true ∨ c.fifoOn = false) → c.MarkerOk → c'.MarkerOk

/-- The same, and an identification that was right is right again (R808). -/
structure Channel.Arbitrates (src : BitVec 5) (c c' : Channel) : Prop extends c.MovesSources src c' where
  identification : c.IdentificationOk → c'.IdentificationOk

/-- Two channels with the same arbiter meet the same invariants of it. -/
theorem Channel.MarkerOk.of_arbiter_eq {c c' : Channel} (e : c'.arbiter = c.arbiter) (h : c.MarkerOk) :
    c'.MarkerOk := by
  obtain ⟨hp, -, -, -, hf⟩ := Arbiter.mk.inj e
  exact ⟨hp ▸ h.withRda, hp ▸ hf ▸ h.fifoOnly⟩

theorem Channel.IdentificationOk.of_arbiter_eq {c c' : Channel} (e : c'.arbiter = c.arbiter)
    (h : c.IdentificationOk) : c'.IdentificationOk := by
  obtain ⟨hp, hi, hid, hl, -⟩ := Arbiter.mk.inj e
  exact ⟨by rw [hid, hp, hi, h.iirId], by rw [hl, hp, hi, h.intLine]⟩

/-- A source that is not cleared stays pending (R802). -/
theorem getLsbD_cleared {p src : BitVec 5} {b : Nat} (hp : p.getLsbD b = true) (hs : src.getLsbD b = false) :
    (p &&& ~~~src).getLsbD b = true := by
  rw [BitVec.getLsbD_and, BitVec.getLsbD_not, hp, hs, decide_eq_true (BitVec.lt_of_getLsbD hp)]
  rfl

/-- What is pending after a clear was pending and is not cleared (R802). -/
theorem getLsbD_of_cleared {p src : BitVec 5} {b : Nat} (h : (p &&& ~~~src).getLsbD b = true) :
    p.getLsbD b = true ∧ src.getLsbD b = false := by
  simp only [BitVec.getLsbD_and, BitVec.getLsbD_not, Bool.and_eq_true, Bool.not_eq_true'] at h
  exact ⟨h.1, h.2.2⟩

/-- A cleared source is not pending (R802). -/
theorem getLsbD_cleared_self (p : BitVec 5) {src : BitVec 5} {b : Nat} (hs : src.getLsbD b = true) :
    (p &&& ~~~src).getLsbD b = false :=
  Bool.eq_false_iff.mpr fun h => Bool.false_ne_true ((getLsbD_of_cleared h).2.symm.trans hs)

/-- A raised source leaves the others (R801). -/
theorem getLsbD_raised {p : BitVec 5} {b : Nat} (src : BitVec 5) (hp : p.getLsbD b = true) :
    (p ||| src).getLsbD b = true := by
  rw [BitVec.getLsbD_or, hp, Bool.true_or]

/-- Without the marker nothing is asked of RDA (R811). -/
theorem Channel.MarkerOk.of_unmarked {c : Channel} (h : c.pending.getLsbD 4 = false) : c.MarkerOk :=
  ⟨fun h4 => absurd (h.symm.trans h4) Bool.false_ne_true, fun h4 => absurd (h.symm.trans h4) Bool.false_ne_true⟩

section Sources
variable {src src' : BitVec 5} {c c' c'' : Channel} {k : Call}

theorem Channel.MovesSources.trans (h : c.MovesSources src c') (h' : c'.MovesSources 0 c'') :
    c.MovesSources src c'' where
  keeps b hb hs := h'.keeps b (h.keeps b hb hs) BitVec.getLsbD_zero
  marker hs hm := h'.marker (fun h0 => absurd h0 (by decide)) (h.marker hs hm)

/-- Whatever came before, a recomputation makes the identification right (R804, R808). -/
theorem Channel.MovesSources.identified (h : c.MovesSources src c') : c.Arbitrates src c'.identified where
  keeps := h.keeps
  marker hs hm :=
    have hm' := h.marker hs hm
    ⟨hm'.withRda, hm'.fifoOnly⟩
  identification _ := Channel.identified_ok _

namespace Channel.Arbitrates

theorem refl (src : BitVec 5) (c : Channel) : c.Arbitrates src c := ⟨⟨fun _ hb _ => hb, fun _ hm => hm⟩, id⟩

theorem trans (h : c.Arbitrates src c') (h' : c'.Arbitrates 0 c'') : c.Arbitrates src c'' :=
  ⟨h.toMovesSources.trans h'.toMovesSources, fun hid => h'.identification (h.identification hid)⟩

theorem of_arbiter_eq (e : c'.arbiter = c.arbiter) : c.Arbitrates src c' where
  keeps _ hb _ := by rwa [show c'.pending = c.pending from congrArg Arbiter.pending e]
  marker _ := .of_arbiter_eq e
  identification := .of_arbiter_eq e

/-- A change that is none of the arbiter's. -/
theorem thenSame (h : c.Arbitrates src c') (e : c''.arbiter = c'.arbiter) : c.Arbitrates src c'' :=
  h.trans (.of_arbiter_eq e)

/-- A source other than the marker is raised (R801). -/
theorem thenTrigger (h : c.Arbitrates src k.ch) (hs : src'.getLsbD 4 = false) :
    c.Arbitrates src (trigger src' k).ch := by
  have h4 (h : (k.ch.pending ||| src').getLsbD 4 = true) : k.ch.pending.getLsbD 4 = true := by
    rwa [BitVec.getLsbD_or, hs, Bool.or_false] at h
  have hraise : k.ch.MovesSources 0 { k.ch with pending := k.ch.pending ||| src' } :=
    ⟨fun _ hb _ => getLsbD_raised src' hb,
      fun _ hm => ⟨fun hb => getLsbD_raised src' (hm.withRda (h4 hb)), fun hb => hm.fifoOnly (h4 hb)⟩⟩
  exact h.trans hraise.identified

/-- The marker is raised together with RDA, in the FIFO discipline (R1010). -/
theorem thenTimeout (h : c.Arbitrates src k.ch) (hf : k.ch.fifoOn = true) :
    c.Arbitrates src (trigger srcCti k).ch := by
  have h0 : (k.ch.pending ||| srcCti).getLsbD 0 = true := by
    rw [BitVec.getLsbD_or]
    exact Bool.or_true _
  have hraise : k.ch.MovesSources 0 { k.ch with pending := k.ch.pending ||| srcCti } :=
    ⟨fun _ hb _ => getLsbD_raised srcCti hb, fun _ _ => ⟨fun _ => h0, fun _ => hf⟩⟩
  exact h.trans hraise.identified

/-- Sources are cleared (R802): RDA without the marker only where no marker can stand. -/
theorem of_clear (e : k.ch.arbiter = c.arbiter) : c.Arbitrates src (clear src k).ch := by
  obtain ⟨hp, -, -, -, -⟩ := Arbiter.mk.inj e
  refine MovesSources.identified (c' := { k.ch with pending := k.ch.pending &&& ~~~src })
    ⟨fun b hb hs => getLsbD_cleared (hp ▸ hb) hs, fun hsafe hm => ?_⟩
  have hk : k.ch.MarkerOk := hm.of_arbiter_eq e
  refine ⟨fun h4 => ?_, fun h4 => hk.fifoOnly (getLsbD_of_cleared h4).1⟩
  obtain ⟨hp4, hs4⟩ := getLsbD_of_cleared h4
  have hs0 : src.getLsbD 0 = false := by
    refine Bool.eq_false_iff.mpr fun hs0 => ?_
    obtain hs | hoff := hsafe hs0
    · exact Bool.false_ne_true (hs4.symm.trans hs)
    · exact Bool.false_ne_true (hoff.symm.trans (hm.fifoOnly (hp ▸ hp4)))
  exact getLsbD_cleared (hk.withRda hp4) hs0

end Channel.Arbitrates

end Sources

section Procedures
open Channel.Arbitrates
variable {src : BitVec 5} {c : Channel} {k : Call} (h : c.Arbitrates src k.ch)
include h

theorem updateTxFlags_arbitrates : c.Arbitrates src (updateTxFlags k).ch := by
  unfold updateTxFlags
  dsimp only
  split
  · exact thenTrigger (k := k.modify fun c => { c with lsr := c.lsrWithTxFlags }) (h.thenSame rfl) rfl
  · exact h.thenSame rfl

theorem txComplete_arbitrates : c.Arbitrates src (txComplete k).ch := by
  have hidle : k.ch.idled.arbiter = k.ch.arbiter := rfl
  rw [txComplete_ch]
  exact updateTxFlags_arbitrates (h.thenSame ((loadNext_onlyQueues _).arbiter_eq.trans hidle))

theorem txServiceStep_arbitrates : c.Arbitrates src (txServiceStep k).ch := by
  unfold txServiceStep
  dsimp only
  split
  · split
    · exact txComplete_arbitrates (h.thenSame rfl)
    · exact h.thenSame rfl
  · exact h

theorem txFlush_arbitrates : c.Arbitrates src (txFlush k).ch :=
  updateTxFlags_arbitrates (h.thenSame rfl)

theorem rxAcceptUnbuf_arbitrates (b : Byte) : c.Arbitrates src (rxAcceptUnbuf b k).ch := by
  unfold rxAcceptUnbuf
  split
  · exact thenTrigger (k := k.modify fun c => { c with lsr := setBit c.lsr 1 true }) (h.thenSame rfl) rfl
  · exact thenTrigger (k := k.modify fun c => { c with rbr := b, lsr := setBit c.lsr 0 true }) (h.thenSame rfl) rfl

theorem rxAcceptFifo_arbitrates (b : Byte) : c.Arbitrates src (rxAcceptFifo b k).ch := by
  have hput : c.Arbitrates src (k.modify fun c =>
    armTimeout { c with rx := c.rx.push c.depth b, lsr := setBit c.lsr 0 true }).ch := h.thenSame rfl
  unfold rxAcceptFifo
  dsimp only
  split
  · exact thenTrigger (k := k.modify fun c => { c with lsr := setBit c.lsr 1 true }) (h.thenSame rfl) rfl
  · split
    · exact hput.thenTrigger rfl
    · exact hput

theorem rxServiceStep_arbitrates : c.Arbitrates src (rxServiceStep k).ch := by
  have hcall : c.Arbitrates src (callRx k).ch := h.thenSame rfl
  unfold rxServiceStep rxAccept
  split
  · exact hcall
  · split
    · exact rxAcceptFifo_arbitrates hcall _
    · exact rxAcceptUnbuf_arbitrates hcall _

theorem timeoutStep_arbitrates : c.Arbitrates src (timeoutStep k).ch := by
  have hcount : c.Arbitrates src (k.modify fun c => { c with toCnt := c.toCnt - 1 }).ch := h.thenSame rfl
  unfold timeoutStep
  dsimp only
  split
  · next hon =>
    obtain ⟨-, hf⟩ := Bool.and_eq_true_iff.mp hon
    split
    · exact thenTimeout (k := (k.modify fun c => { c with toCnt := c.toCnt - 1 }).modify fun c =>
        { c with toArmed := false }) (hcount.thenSame rfl) hf
    · exact hcount
  · exact h

theorem tickCall_arbitrates : c.Arbitrates src (tickCall k).ch :=
  tickCall_keeps (fun _ => timeoutStep_arbitrates) (fun _ => rxServiceStep_arbitrates)
    (fun _ => txServiceStep_arbitrates) (fun _ _ h => h.thenSame rfl) k h

theorem divisorReprogram_arbitrates : c.Arbitrates src (divisorReprogram k).ch := by
  unfold divisorReprogram
  dsimp only
  split
  · exact (txComplete_arbitrates h).thenSame rfl
  · exact h.thenSame rfl

end Procedures

section Operations
open Channel.Arbitrates
variable (d : Byte) (k : Call)

/-- A THR write clears THRE before it queues the byte (R905, R906). -/
theorem wrThrCall_arbitrates : k.ch.Arbitrates srcThre (wrThrCall d k).ch := by
  unfold wrThrCall
  split
  · have hclear := of_clear (src := srcThre) (c := k.ch) (k := k.modify fun c =>
      { c with thr := d, lsr := setBit (setBit c.lsr 5 false) 6 false }) rfl
    rw [txWriteFifo_eq]
    exact updateTxFlags_arbitrates ((hclear.thenSame (queueTx_onlyQueues _ d).arbiter_eq).thenSame
      (startIfIdle_onlyQueues _).arbiter_eq)
  · have hclear := of_clear (src := srcThre) (c := k.ch) (k := k.modify fun c => { c with thr := d }) rfl
    rw [txWriteUnbuf_eq]
    exact updateTxFlags_arbitrates (hclear.thenSame (startOrWait_onlyQueues _ d).arbiter_eq)

/-- An IER write clears no source, disabled or not (R602, R807). -/
theorem wrIerCall_arbitrates : k.ch.Arbitrates 0 (wrIerCall d k).ch := by
  have hstore : k.ch.MovesSources 0 { k.ch with ier := storedIer k.ch.cfg.variant d } :=
    ⟨fun _ hb _ => hb, fun _ hm => ⟨hm.withRda, hm.fifoOnly⟩⟩
  have hrec : k.ch.Arbitrates 0 (recompute (k.modify fun c => { c with ier := storedIer c.cfg.variant d })).ch :=
    hstore.identified
  unfold wrIerCall
  dsimp only
  split
  · exact hrec.thenTrigger (src' := srcThre) rfl
  · exact hrec

/-- An IIR read clears THRE if anything (R604). -/
theorem rdIirCall_arbitrates : k.ch.Arbitrates srcThre (rdIirCall k).ch := by
  by_cases h : k.ch.iirId = 0b0010
  · rw [rdIirCall_of_thre h]
    exact of_clear rfl
  · rw [rdIirCall_of_not_thre h]
    exact refl srcThre k.ch

/-- A FIFO read clears the marker with RDA and may set RDA again (R912). -/
theorem rxPop_pending : (rxPop k).ch.pending = k.ch.pending &&& ~~~srcCti ∨
    (rxPop k).ch.pending = k.ch.pending &&& ~~~srcCti ||| srcRda := by
  rw [rxPop_ch, Channel.identified_pending]
  by_cases h : k.ch.trigLevel ≤ (popRx k.ch).rxContents.length
  · exact .inr (if_pos h)
  · exact .inl (if_neg h)

theorem rxPop_arbitrates : k.ch.Arbitrates srcCti (rxPop k).ch := by
  have h4 : (k.ch.pending &&& ~~~srcCti).getLsbD 4 = false := getLsbD_cleared_self _ rfl
  refine ⟨⟨fun b hb hs => ?_, fun _ _ => .of_unmarked ?_⟩, fun _ => Channel.identified_ok _⟩
  · obtain hp | hp := rxPop_pending k <;> rw [hp]
    · exact getLsbD_cleared hb hs
    · exact getLsbD_raised srcRda (getLsbD_cleared hb hs)
  · obtain hp | hp := rxPop_pending k <;> rw [hp]
    · exact h4
    · rw [BitVec.getLsbD_or, h4]
      rfl

theorem wrMcrCall_arbitrates : k.ch.Arbitrates 0 (wrMcrCall d k).ch := by
  have hstore : k.ch.Arbitrates 0 (k.modify fun c => (c.withMcr d).withModemStatus).ch := of_arbiter_eq rfl
  by_cases h : (k.ch.withMcr d).newDeltas = 0
  · rw [wrMcrCall_of_no_delta d k h]
    exact hstore
  · rw [wrMcrCall_of_delta d k h]
    exact hstore.thenTrigger rfl

/-- A forced LSR write does not raise the marker (R702). -/
theorem forcedLsrSources_marker : ∀ d : Byte, (forcedLsrSources d).getLsbD 4 = false := by decide

theorem wrLsrCall_arbitrates : k.ch.Arbitrates 0 (wrLsrCall d k).ch := by
  have hforce : k.ch.Arbitrates 0 (k.modify fun c => { c with lsr := forcedLsr c.lsr d }).ch := of_arbiter_eq rfl
  by_cases h : d &&& 0x1F = 0x00
  · rw [wrLsrCall_of_zeros h]
    exact of_arbiter_eq rfl
  · rw [wrLsrCall_of_ones h]
    exact hforce.thenTrigger (forcedLsrSources_marker d)

theorem wrMsrCall_arbitrates : k.ch.Arbitrates 0 (wrMsrCall d k).ch := by
  have hforce : k.ch.Arbitrates 0 (k.modify fun c => { c with msr := d }).ch := of_arbiter_eq rfl
  by_cases h : d &&& 0x0F = 0x00
  · rw [wrMsrCall_of_no_delta h]
    exact hforce
  · rw [wrMsrCall_of_delta h]
    exact hforce.thenTrigger rfl

/-- A receive flush clears the marker with RDA, whatever FCR now holds (R605, R913). -/
theorem rxFlush_movesSources (f : Byte) : k.ch.MovesSources srcCti (rxFlush (storeFcr f k)).ch where
  keeps _ hb hs := getLsbD_cleared hb hs
  marker _ _ := .of_unmarked (getLsbD_cleared_self _ rfl)

/-- An FCR write clears the marker with RDA if anything (R605); a change of the discipline always does. -/
theorem wrFcrCall_arbitrates : k.ch.Arbitrates srcCti (wrFcrCall d k).ch := by
  have hflush := rxFlush_movesSources k (storedFcr d)
  have hstore (hb : (storedFcr d).getLsbD 0 = k.ch.fcr.getLsbD 0) :
      k.ch.MovesSources srcCti (storeFcr (storedFcr d) k).ch :=
    ⟨fun _ hb _ => hb, fun _ hm => ⟨hm.withRda, fun h4 => (Channel.fifoOn_fcr hb).trans (hm.fifoOnly h4)⟩⟩
  have htx (k' : Call) := (txFlush_arbitrates (refl 0 k'.ch)).toMovesSources
  obtain he | he | ⟨hb, he | he | he⟩ := wrFcrCall_cases d k <;> rw [he]
  · exact refl srcCti k.ch
  · exact (hflush.trans (htx _)).identified
  · exact (hstore hb).identified
  · exact hflush.identified
  · exact ((hstore hb).trans (htx _)).identified

/-- A reset clears every source (R1300). -/
theorem resetCall_arbitrates : k.ch.Arbitrates (BitVec.allOnes 5) (resetCall k).ch := by
  have hpending : (resetRegisters k.ch).pending.getLsbD 4 = false := BitVec.getLsbD_zero
  refine Channel.MovesSources.identified (c' := resetRegisters k.ch)
    ⟨fun b hb hs => ?_, fun _ _ => .of_unmarked hpending⟩
  rw [BitVec.getLsbD_allOnes, decide_eq_true (BitVec.lt_of_getLsbD hb)] at hs
  exact absurd hs (by decide)

end Operations

/-- The sources an operation may clear in the channel's state (R807); a reset, the soft one included, clears all. -/
def mayClear (i : Instr) (c : Channel) : BitVec 5 :=
  match i with
  | .rdRbr => srcRda
  | .rdRbrFifo | .wrFcr _ => srcCti
  | .rdIir | .wrThr _ => srcThre
  | .rdLsr => srcRls
  | .rdMsr => srcMs
  | .reset => BitVec.allOnes 5
  | .wrIcr d => if d = 0x00 ∧ c.scr = 0x0C then BitVec.allOnes 5 else 0
  | _ => 0

theorem wrIcrCall_arbitrates (d : Byte) (k : Call) :
    k.ch.Arbitrates (mayClear (.wrIcr d) k.ch) (wrIcrCall d k).ch := by
  by_cases h : d = 0x00 ∧ k.ch.scr = 0x0C
  · rw [mayClear, if_pos h, wrIcrCall_of_csr h.2 h.1]
    exact resetCall_arbitrates k
  · by_cases hid : isIdIndex k.ch.scr.toNat = true
    · rw [wrIcrCall_of_isIdIndex hid]
      exact .refl ..
    · rw [wrIcrCall_of_store hid (not_and_or.mp h).symm]
      exact .of_arbiter_eq rfl

/-- Every operation follows the table. -/
theorem channelCall_arbitrates (i : Instr) (k : Call) : k.ch.Arbitrates (mayClear i k.ch) (channelCall i k).ch := by
  cases i with
  | rdRbr | rdLsr | rdMsr => exact .of_clear (k := k.modify _) rfl
  | rdRbrFifo => exact rxPop_arbitrates k
  | wrThr d => exact wrThrCall_arbitrates d k
  | wrDll d | wrDlm d => exact divisorReprogram_arbitrates (k := k.modify _) (.of_arbiter_eq rfl)
  | wrIer d => exact wrIerCall_arbitrates d k
  | rdIir => exact rdIirCall_arbitrates k
  | wrFcr d => exact wrFcrCall_arbitrates d k
  | wrMcr d => exact wrMcrCall_arbitrates d k
  | wrLsr d => exact wrLsrCall_arbitrates d k
  | wrMsr d => exact wrMsrCall_arbitrates d k
  | wrIcr d => exact wrIcrCall_arbitrates d k
  | tick => exact tickCall_arbitrates (.refl ..)
  | reset => exact resetCall_arbitrates k
  | _ => exact .of_arbiter_eq rfl

end Sys2Proof.Machine
end

section
/-! The arbiter's safety and invariants (R807, R808, R811), each read off the table of the sources an operation may
clear. -/

namespace Sys2Proof.Machine

/-- The bits of the sources' masks (R800). -/
theorem sourceMasks_bits : ∀ b < 5,
    (srcRda.getLsbD b = true → b = 0) ∧ (srcThre.getLsbD b = true → b = 1) ∧
    (srcRls.getLsbD b = true → b = 2) ∧ (srcMs.getLsbD b = true → b = 3) ∧
    (srcCti.getLsbD b = true → b = 0 ∨ b = 4) := by decide

/-- Reading the table by sources: the operations that may clear each (R807, R1202). -/
theorem mayClear_owners {i : Instr} {c : Channel} {b : Nat} (h : (mayClear i c).getLsbD b = true) :
    (i = .rdRbr ∧ b = 0) ∨ (i = .rdRbrFifo ∧ (b = 0 ∨ b = 4)) ∨ (i = .rdIir ∧ b = 1) ∨
    (i = .rdLsr ∧ b = 2) ∨ (i = .rdMsr ∧ b = 3) ∨ (∃ d, i = .wrThr d ∧ b = 1) ∨
    (∃ d, i = .wrFcr d ∧ (b = 0 ∨ b = 4)) ∨ i = .reset ∨ (i = .wrIcr 0x00 ∧ c.scr = 0x0C) := by
  obtain ⟨hrda, hthre, hrls, hms, hcti⟩ := sourceMasks_bits b (BitVec.lt_of_getLsbD h)
  cases i with
  | rdRbr => simp [hrda h]
  | rdRbrFifo => simp [hcti h]
  | rdIir => simp [hthre h]
  | wrThr d => simp [hthre h]
  | rdLsr => simp [hrls h]
  | rdMsr => simp [hms h]
  | wrFcr d => simp [hcti h]
  | reset => simp
  | wrIcr d =>
    by_cases hcsr : d = 0x00 ∧ c.scr = 0x0C
    · simp [hcsr]
    · rw [mayClear, if_neg hcsr] at h
      exact absurd h (by simp)
  | _ => exact absurd h (by simp [mayClear])

/-- Settles O27: a source that goes is one the table lets the operation clear. -/
theorem onlyTheListedOperationsClearAPendingBit : Obligations.OnlyTheListedOperationsClearAPendingBit := by
  unfold Obligations.OnlyTheListedOperationsClearAPendingBit
  intro i s t b h hb hb'
  rw [exec_chan h] at hb'
  refine mayClear_owners (c := s.chan) ?_
  by_contra hkept
  have hstill := (channelCall_arbitrates i ⟨s.chan, s.events, none⟩).keeps b hb (Bool.eq_false_iff.mpr hkept)
  exact Bool.false_ne_true (hb'.symm.trans hstill)

/-- Settles O44: every operation leaves the identification right if it found it right. -/
theorem stepsKeepTheIdentification : Obligations.StepsKeepTheIdentification := by
  unfold Obligations.StepsKeepTheIdentification
  exact fun s t => step_everywhere fun i k _ => (channelCall_arbitrates i k).identification

/-- RDA goes without the marker only in an unbuffered RBR read, which decodes only in the unbuffered discipline (R501,
R502). -/
theorem mayClear_rda {i : Instr} {c : Channel} (hc : i.condition c.view = true)
    (h : (mayClear i c).getLsbD 0 = true) : (mayClear i c).getLsbD 4 = true ∨ c.fifoOn = false := by
  cases i with
  | rdRbr =>
    have hoff := (Bool.and_eq_true_iff.mp hc).2
    exact .inr ((Bool.not_eq_true' c.fifoOn).mp hoff)
  | rdRbrFifo | wrFcr d | reset => exact .inl (by simp [mayClear, srcCti])
  | wrIcr d =>
    by_cases hcsr : d = 0x00 ∧ c.scr = 0x0C
    · rw [mayClear, if_pos hcsr]
      exact .inl rfl
    · rw [mayClear, if_neg hcsr] at h
      exact absurd h (by decide)
  | _ => exact absurd h (by simp [mayClear, srcThre, srcRls, srcMs])

/-- Every operation keeps the marker beside RDA in the states that decode to it (R811). -/
theorem channelCall_markerOk (i : Instr) (k : Call) (hc : i.condition k.ch.view = true) (h : k.ch.MarkerOk) :
    (channelCall i k).ch.MarkerOk :=
  (channelCall_arbitrates i k).marker (mayClear_rda hc) h

/-- Settles O45: what clears RDA clears the marker too, or runs in the unbuffered discipline. -/
theorem stepsKeepTheMarkerBesideRda : Obligations.StepsKeepTheMarkerBesideRda := by
  unfold Obligations.StepsKeepTheMarkerBesideRda
  exact fun s t => step_everywhere channelCall_markerOk

end Sys2Proof.Machine
end

section
/-! The fixed bits (R106, R108, R110, R111, R115, R134). No procedure touches LSR[7]; the other bits belong to registers
of the table of owners, and each owner masks what it stores or runs only on a variant that has the register. -/

namespace Sys2Proof.Machine

/-- No write of one of the LSR's other bits touches bit 7 (R111). -/
theorem setBit_dr_lsr7 : ∀ (v : Byte) (x : Bool), (setBit v 0 x).getLsbD 7 = v.getLsbD 7 := by decide
theorem setBit_oe_lsr7 : ∀ (v : Byte) (x : Bool), (setBit v 1 x).getLsbD 7 = v.getLsbD 7 := by decide
theorem lsrAfterRead_lsr7 : ∀ v : Byte, (lsrAfterRead v).getLsbD 7 = v.getLsbD 7 := by decide

theorem forcedLsr_lsr7 (v d : Byte) : (forcedLsr v d).getLsbD 7 = v.getLsbD 7 := by
  simp [forcedLsr]

/-- LSR[7] reads 0 (R111). -/
def Channel.Lsr7Clear (c : Channel) : Prop := c.lsr.getLsbD 7 = false

section Lsr
variable {k : Call} {c c' : Channel}

theorem Channel.Lsr7Clear.of_eq (h : c.Lsr7Clear) (e : c'.lsr.getLsbD 7 = c.lsr.getLsbD 7) : c'.Lsr7Clear :=
  e.trans h

theorem updateTxFlags_lsr7 (h : k.ch.Lsr7Clear) : (updateTxFlags k).ch.Lsr7Clear :=
  h.of_eq (by rw [updateTxFlags_lsr]; exact (setBit_tx_bits ..).2.2.2)

theorem txComplete_lsr7 (h : k.ch.Lsr7Clear) : (txComplete k).ch.Lsr7Clear := by
  rw [txComplete_ch]
  exact updateTxFlags_lsr7 (h.of_eq (congrArg (·.getLsbD 7) (loadNext_onlyQueues k.ch.idled).lsr_eq))

theorem txServiceStep_lsr7 (h : k.ch.Lsr7Clear) : (txServiceStep k).ch.Lsr7Clear := by
  unfold txServiceStep
  dsimp only
  split
  · split
    · exact txComplete_lsr7 h
    · exact h
  · exact h

theorem rxAcceptFifo_lsr7 (b : Byte) (h : k.ch.Lsr7Clear) : (rxAcceptFifo b k).ch.Lsr7Clear := by
  unfold rxAcceptFifo
  dsimp only
  split
  · exact h.of_eq (setBit_oe_lsr7 ..)
  · split <;> exact h.of_eq (setBit_dr_lsr7 ..)

theorem rxAcceptUnbuf_lsr7 (b : Byte) (h : k.ch.Lsr7Clear) : (rxAcceptUnbuf b k).ch.Lsr7Clear := by
  unfold rxAcceptUnbuf
  split
  · exact h.of_eq (setBit_oe_lsr7 ..)
  · exact h.of_eq (setBit_dr_lsr7 ..)

theorem rxServiceStep_lsr7 (h : k.ch.Lsr7Clear) : (rxServiceStep k).ch.Lsr7Clear := by
  have hcall : (callRx k).ch.Lsr7Clear := h
  unfold rxServiceStep rxAccept
  split
  · exact hcall
  · split
    · exact rxAcceptFifo_lsr7 _ hcall
    · exact rxAcceptUnbuf_lsr7 _ hcall

theorem timeoutStep_lsr7 (h : k.ch.Lsr7Clear) : (timeoutStep k).ch.Lsr7Clear := by
  rw [timeoutStep_ch]
  split
  · split <;> exact h
  · exact h

theorem tickCall_lsr7 (h : k.ch.Lsr7Clear) : (tickCall k).ch.Lsr7Clear :=
  tickCall_keeps (fun _ => timeoutStep_lsr7) (fun _ => rxServiceStep_lsr7) (fun _ => txServiceStep_lsr7)
    (fun _ _ h => h) k h

theorem divisorReprogram_lsr7 (h : k.ch.Lsr7Clear) : (divisorReprogram k).ch.Lsr7Clear := by
  unfold divisorReprogram
  dsimp only
  split
  · exact txComplete_lsr7 h
  · exact h

theorem wrThrCall_lsr7 (d : Byte) (h : k.ch.Lsr7Clear) : (wrThrCall d k).ch.Lsr7Clear := by
  unfold wrThrCall
  split
  · rw [txWriteFifo_eq]
    refine updateTxFlags_lsr7 (h.of_eq ?_)
    rw [Call.modify_ch, (startIfIdle_onlyQueues _).lsr_eq, Call.modify_ch, (queueTx_onlyQueues _ d).lsr_eq]
    exact (setBit_tx_bits ..).2.2.2
  · rw [txWriteUnbuf_eq]
    exact updateTxFlags_lsr7 (h.of_eq (congrArg (·.getLsbD 7) (startOrWait_onlyQueues _ d).lsr_eq))

theorem rxFlush_lsr7 (h : k.ch.Lsr7Clear) : (rxFlush k).ch.Lsr7Clear := h.of_eq (setBit_dr_lsr7 ..)

theorem txFlush_lsr7 (h : k.ch.Lsr7Clear) : (txFlush k).ch.Lsr7Clear := updateTxFlags_lsr7 h

theorem wrFcrCall_lsr7 (d : Byte) (h : k.ch.Lsr7Clear) : (wrFcrCall d k).ch.Lsr7Clear := by
  have hstore : (storeFcr (storedFcr d) k).ch.Lsr7Clear := h
  obtain he | he | ⟨-, he | he | he⟩ := wrFcrCall_cases d k <;> rw [he]
  · exact h
  · exact txFlush_lsr7 (rxFlush_lsr7 hstore)
  · exact hstore
  · exact rxFlush_lsr7 hstore
  · exact txFlush_lsr7 hstore

theorem settleRx_lsr7 (h : c.Lsr7Clear) : (settleRx c).Lsr7Clear := by
  unfold settleRx
  split
  · exact h.of_eq (setBit_dr_lsr7 ..)
  · exact h

theorem rxPop_lsr7 (h : k.ch.Lsr7Clear) : (rxPop k).ch.Lsr7Clear := by
  have hpop : (popRx k.ch).Lsr7Clear := h.of_eq (by rw [popRx_eq])
  exact settleRx_lsr7 (c := { popRx k.ch with pending := (popRx k.ch).pendingAfterPop }) hpop

theorem resetRegisters_lsr7 (c : Channel) : (resetRegisters c).Lsr7Clear := by
  rw [Channel.Lsr7Clear, resetRegisters_lsr]
  rfl

/-- No operation sets LSR[7] (R111). -/
theorem channelCall_lsr7 (i : Instr) (h : k.ch.Lsr7Clear) : (channelCall i k).ch.Lsr7Clear := by
  cases i with
  | rdRbr => exact h.of_eq (setBit_dr_lsr7 ..)
  | rdLsr => exact h.of_eq (lsrAfterRead_lsr7 _)
  | rdRbrFifo => exact rxPop_lsr7 h
  | wrThr d => exact wrThrCall_lsr7 d h
  | wrDll d | wrDlm d => exact divisorReprogram_lsr7 (k := k.modify _) h
  | wrFcr d => exact wrFcrCall_lsr7 d h
  | wrLsr d =>
    simp only [channelCall, wrLsrCall]
    split <;> exact h.of_eq (forcedLsr_lsr7 ..)
  | tick => exact tickCall_lsr7 h
  | reset => exact resetRegisters_lsr7 k.ch
  | wrIcr d =>
    obtain he | he | ⟨-, he⟩ := wrIcrCall_cases d k <;> rw [channelCall, he]
    · exact h
    · exact resetRegisters_lsr7 k.ch
    · exact h
  | wrIer d =>
    rw [channelCall, wrIerCall_eq]
    exact h
  | rdIir =>
    simp only [channelCall, rdIirCall]
    split <;> exact h
  | wrMcr d =>
    simp only [channelCall, wrMcrCall, modemStatusRecompute]
    split <;> exact h
  | wrMsr d =>
    simp only [channelCall, wrMsrCall]
    split <;> exact h
  | _ => exact h

end Lsr

/-- The fixed bits of the registers in the table of owners, on a variant (R106, R108, R110, R115, R134). -/
structure Registers.Fixed (v : Variant) (r : Registers) : Prop where
  ier    : v.ext = false → r.ier &&& 0xF0 = 0x00
  mcr    : v.ext = false → r.mcr &&& 0xE0 = 0x00
  fcr    : r.fcr &&& 0x06 = 0x00
  noFifo : v.fifoCap = false → r.fcr = 0x00
  noBank : v.hasBank650 = false → r.bank650 = false
  noIcr  : v.x950 = false → r.icr = []

theorem Channel.fixedOk_iff {c : Channel} : c.FixedOk ↔ c.Lsr7Clear ∧ c.registers.Fixed c.cfg.variant :=
  ⟨fun h => ⟨h.lsr7, h.ier, h.mcr, h.fcr, h.noFifo, h.noBank, h.noIcr⟩,
    fun ⟨hl, h⟩ => ⟨hl, h.ier, h.mcr, h.fcr, h.noFifo, h.noBank, h.noIcr⟩⟩

/-- Without Ext an IER write keeps bits 7:4 at 0 (R106, R602). -/
theorem storedIer_fixed {v : Variant} (hv : v.ext = false) (d : Byte) : storedIer v d &&& 0xF0 = 0x00 := by
  have hmask : ∀ d : Byte, d &&& 0x0F &&& 0xF0 = 0x00 := by decide
  rw [storedIer, hv]
  exact hmask d

/-- Without Ext an MCR write keeps bits 7:5 at 0 (R110, R612). -/
theorem storedMcr_fixed {v : Variant} (hv : v.ext = false) (d : Byte) : storedMcr v d &&& 0xE0 = 0x00 := by
  have hmask : ∀ d : Byte, d &&& 0x1F &&& 0xE0 = 0x00 := by decide
  rw [storedMcr, hv]
  exact hmask d

/-- The self-clearing bits of FCR are not stored (R108, R605). -/
theorem storedFcr_fixed : ∀ d : Byte, storedFcr d &&& 0x06 = 0x00 := by decide

theorem wrIerCall_ier (d : Byte) (k : Call) : (wrIerCall d k).ch.ier = storedIer k.ch.cfg.variant d := by
  rw [wrIerCall_eq]
  rfl

theorem wrMcrCall_mcr (d : Byte) (k : Call) : (wrMcrCall d k).ch.mcr = storedMcr k.ch.cfg.variant d := by
  by_cases h : (k.ch.withMcr d).newDeltas = 0
  · rw [wrMcrCall_of_no_delta d k h]
    rfl
  · rw [wrMcrCall_of_delta d k h]
    rfl

/-- FCR changes only on a variant with a FIFO, and then it is the stored byte (R605). -/
theorem wrFcrCall_registers_cases (d : Byte) (k : Call) : (wrFcrCall d k).ch.registers = k.ch.registers ∨
    k.ch.cfg.variant.fifoCap = true ∧
      (wrFcrCall d k).ch.registers = { k.ch.registers with fcr := storedFcr d } := by
  by_cases hd : k.ch.depth = 0
  · exact .inl (by rw [wrFcrCall_of_depth_eq_zero hd])
  · refine (wrFcrCall_cases d k).imp (fun h => by rw [h]) fun h => ⟨fifoCap_of_depth_ne_zero hd, ?_⟩
    obtain h | ⟨-, h | h | h⟩ := h <;>
      simp only [h, recompute_registers, txFlush_registers, rxFlush_registers] <;> rfl

/-- A reset leaves the fixed bits, and what a variant lacks as it was (R1300). -/
theorem resetRegisters_fixedOk {c : Channel} (h : c.FixedOk) : (resetRegisters c).FixedOk where
  lsr7 := resetRegisters_lsr7 c
  ier _ := BitVec.zero_and
  mcr _ := BitVec.zero_and
  fcr := by
    rw [resetRegisters_fcr h]
    rfl
  noFifo _ := resetRegisters_fcr h
  noBank _ := resetRegisters_bank650 h
  noIcr hx := by
    have hx' : ¬c.cfg.variant.x950 = true := Bool.eq_false_iff.mp hx
    rw [resetRegisters_icr, if_neg hx']
    exact h.noIcr hx

/-- Every operation but a reset keeps the fixed bits in the states that decode to it: its register is masked, or the
variant has it. -/
theorem channelCall_registers_fixed {i : Instr} {k : Call} (hc : i.condition k.ch.view = true)
    (hcsr : ¬(i = .wrIcr 0x00 ∧ k.ch.scr = 0x0C)) (hi : i ≠ .reset)
    (h : k.ch.registers.Fixed k.ch.cfg.variant) :
    (channelCall i k).ch.registers.Fixed k.ch.cfg.variant := by
  have hr := channelCall_registers hcsr
  obtain ⟨hier, hmcr, hfcr, hnoFifo, hnoBank, hnoIcr⟩ := h
  cases i with
  | reset => exact absurd rfl hi
  | wrIer d =>
    rw [hr]
    refine ⟨fun hv => ?_, hmcr, hfcr, hnoFifo, hnoBank, hnoIcr⟩
    exact (congrArg (· &&& 0xF0) (wrIerCall_ier d k)).trans (storedIer_fixed hv d)
  | wrMcr d =>
    rw [hr]
    refine ⟨hier, fun hv => ?_, hfcr, hnoFifo, hnoBank, hnoIcr⟩
    exact (congrArg (· &&& 0xE0) (wrMcrCall_mcr d k)).trans (storedMcr_fixed hv d)
  | wrFcr d =>
    obtain he | ⟨hcap, he⟩ := wrFcrCall_registers_cases d k <;> rw [channelCall, he]
    · exact ⟨hier, hmcr, hfcr, hnoFifo, hnoBank, hnoIcr⟩
    · exact ⟨hier, hmcr, storedFcr_fixed d, fun hv => absurd (hv.symm.trans hcap) Bool.false_ne_true, hnoBank,
        hnoIcr⟩
  | wrLcr d =>
    rw [hr]
    exact ⟨hier, hmcr, hfcr, hnoFifo, fun _ => rfl, hnoIcr⟩
  | wrLcrBank =>
    rw [hr]
    exact ⟨hier, hmcr, hfcr, hnoFifo, fun hv => absurd (hv.symm.trans hc) Bool.false_ne_true, hnoIcr⟩
  | wrIcr d =>
    have hx : k.ch.cfg.variant.x950 = true := (Bool.and_eq_true_iff.mp hc).2
    rw [hr]
    exact ⟨hier, hmcr, hfcr, hnoFifo, hnoBank, fun hv => absurd (hv.symm.trans hx) Bool.false_ne_true⟩
  | _ =>
    rw [hr]
    exact ⟨hier, hmcr, hfcr, hnoFifo, hnoBank, hnoIcr⟩

/-- A reset's recomputation is about no fixed bit. -/
theorem resetCall_fixedOk {k : Call} (h : k.ch.FixedOk) : (resetCall k).ch.FixedOk := by
  obtain ⟨hl, hr⟩ := Channel.fixedOk_iff.mp (resetRegisters_fixedOk h)
  exact Channel.fixedOk_iff.mpr ⟨hl, hr⟩

/-- Every operation keeps the fixed bits in the states that decode to it. -/
theorem channelCall_fixedOk (i : Instr) (k : Call) (hc : i.condition k.ch.view = true) (h : k.ch.FixedOk) :
    (channelCall i k).ch.FixedOk := by
  by_cases hi : i = .reset
  · rw [hi]
    exact resetCall_fixedOk h
  by_cases hcsr : i = .wrIcr 0x00 ∧ k.ch.scr = 0x0C
  · rw [hcsr.1, channelCall, wrIcrCall_of_csr hcsr.2 rfl]
    exact resetCall_fixedOk h
  obtain ⟨hl, hr⟩ := Channel.fixedOk_iff.mp h
  refine Channel.fixedOk_iff.mpr ⟨channelCall_lsr7 i hl, ?_⟩
  rw [channelCall_cfg]
  exact channelCall_registers_fixed hc hcsr hi hr

end Sys2Proof.Machine
end

section
/-! The whole invariant (10_state.md section 5): a channel's part is kept by every operation, the identities and the
delivered levels by every step. -/

namespace Sys2Proof.Machine

/-- Every operation keeps its channel's invariant in the states that decode to it. -/
theorem channelCall_inv (i : Instr) (k : Call) (hc : i.condition k.ch.view = true) (h : k.ch.Inv) :
    (channelCall i k).ch.Inv := by
  obtain ⟨hrx, htx⟩ := Channel.fifosOk_iff.mp h.fifos
  obtain ⟨hbaud, htimeout⟩ := Channel.timersOk_iff.mp h.timers
  exact
    { fifos := Channel.fifosOk_iff.mpr ⟨keptByReceiver_rxFifoOk.channelCall i k hc hrx,
        keptByTransmitter_txFifoOk.channelCall i k htx⟩
      identification := (channelCall_arbitrates i k).identification h.identification
      marker := channelCall_markerOk i k hc h.marker
      transmitter := keptByTransmitter_transmitterOk.channelCall i k h.transmitter
      timers := Channel.timersOk_iff.mpr ⟨keptByReceiver_baudOk.channelCall i k hc hbaud,
        keptByReceiver_timeoutOk.channelCall i k hc htimeout⟩
      fixed := channelCall_fixedOk i k hc h.fixed
      parameters := keptByTransmitter_parametersOk.channelCall i k h.parameters }

/-- Settles O52: the channels' parts one operation at a time, the rest by the step that delivers the levels. -/
theorem everyStepKeepsTheInvariant : Obligations.EveryStepKeepsTheInvariant := by
  unfold Obligations.EveryStepKeepsTheInvariant
  intro s t hs h
  obtain ⟨hid, hlines⟩ := stepsDeliverEveryLineLevel s t hs.identities hs.lines h
  exact ⟨step_everywhere channelCall_inv hs.channels h, hid, hlines⟩

end Sys2Proof.Machine
end

section
/-! The THR writes (R503, R905, R906): what a write leaves in the holding register and the TSR, and the flags and the
THRE source that follow from it. -/

namespace Sys2Proof.Machine

/-- With a byte in the TSR and another behind it both empty flags are clear, and no source is raised (R903). -/
theorem updateTxFlags_ch_of_waiting {k : Call} (hb : k.ch.tsrBusy = true) (hh : k.ch.holdingEmpty = false) :
    (updateTxFlags k).ch = { k.ch with lsr := k.ch.lsr &&& 0x9F } := by
  have hlsr : k.ch.lsrWithTxFlags = k.ch.lsr &&& 0x9F := by
    rw [Channel.lsrWithTxFlags_of_busy hb, hh]
    exact BitVec.or_zero ..
  rw [updateTxFlags_ch, hh, Bool.and_false, if_neg Bool.false_ne_true, hlsr]

/-- With a byte in the TSR and none behind it THRE rises with its source where it was clear before (R903). -/
theorem updateTxFlags_ch_of_rising {k : Call} (hb : k.ch.tsrBusy = true) (hh : k.ch.holdingEmpty = true)
    (h5 : k.ch.lsr.getLsbD 5 = false) : (updateTxFlags k).ch =
      { k.ch with lsr := (k.ch.lsr &&& 0x9F) ||| 0x20, pending := k.ch.pending ||| 0x02 }.identified := by
  have hlsr : k.ch.lsrWithTxFlags = (k.ch.lsr &&& 0x9F) ||| 0x20 := by
    rw [Channel.lsrWithTxFlags_of_busy hb, hh]
    rfl
  rw [updateTxFlags_ch, hh, h5, Bool.not_false, Bool.and_self, if_pos rfl, hlsr]
  rfl

section Unbuffered
variable {k : Call} (v : Byte)

/-- The channel of an unbuffered THR write once the byte is stored and the THRE source cleared (R905). -/
def Channel.thrStored (v : Byte) (c : Channel) : Channel :=
  { c with thr := v, pending := c.pending &&& 0x1D }.identified

theorem startOrWait_tsrBusy (c : Channel) : (startOrWait v c).tsrBusy = true := by
  unfold startOrWait
  split
  · assumption
  · rfl

/-- In the unbuffered discipline a byte in the TSR keeps the holding register from counting as empty (R903). -/
theorem txWriteUnbuf_ch (hf : k.ch.fifoOn = false) : (txWriteUnbuf v k).ch =
    { startOrWait v (k.ch.thrStored v) with lsr := k.ch.lsr &&& 0x9F } := by
  have hq := startOrWait_onlyQueues (k.ch.thrStored v) v
  have hbusy := startOrWait_tsrBusy v (k.ch.thrStored v)
  have hheld : (startOrWait v (k.ch.thrStored v)).holdingEmpty = false := by
    rw [Channel.holdingEmpty_of_unbuffered ((congrArg Arbiter.fifoOn hq.arbiter_eq).trans hf), hbusy]
    rfl
  have hlsr : (startOrWait v (k.ch.thrStored v)).lsr = k.ch.lsr := hq.lsr_eq
  rw [txWriteUnbuf_eq]
  refine (updateTxFlags_ch_of_waiting hbusy hheld).trans ?_
  rw [← hlsr]
  rfl

theorem txWriteUnbuf_ch_of_idle (hf : k.ch.fifoOn = false) (hb : k.ch.tsrBusy = false) : (txWriteUnbuf v k).ch =
    { txStart v (k.ch.thrStored v) with lsr := k.ch.lsr &&& 0x9F } := by
  have hb : ¬(k.ch.thrStored v).tsrBusy = true := Bool.eq_false_iff.mp hb
  rw [txWriteUnbuf_ch v hf, startOrWait, if_neg hb]

theorem txWriteUnbuf_ch_of_busy (hf : k.ch.fifoOn = false) (hb : k.ch.tsrBusy = true) : (txWriteUnbuf v k).ch =
    { k.ch.thrStored v with thrPending := true, lsr := k.ch.lsr &&& 0x9F } := by
  have hb : (k.ch.thrStored v).tsrBusy = true := hb
  rw [txWriteUnbuf_ch v hf, startOrWait, if_pos hb]

theorem wrThrCall_of_unbuffered (hf : k.ch.fifoOn = false) : wrThrCall v k = txWriteUnbuf v k :=
  if_neg (Bool.eq_false_iff.mp hf)

theorem wrThrCall_of_fifo (hf : k.ch.fifoOn = true) : wrThrCall v k = txWriteFifo v k := if_pos hf

end Unbuffered

/-- What is observed of a THR write: the channel, and no callback but line calls (R503). -/
theorem State.quiet_wrThr (s : State) (d : Byte) : (s.onChannel (wrThrCall d)).quiet = { s.quiet with
    chan := (wrThrCall d ⟨s.chan, s.events, none⟩).ch, result := none } := by
  cases hf : s.chan.fifoOn with
  | false =>
    have hw := wrThrCall_of_unbuffered (k := ⟨s.chan, s.events, none⟩) d hf
    rw [quiet_onChannel_of_no_dataCalls (by rw [hw, txWriteUnbuf_dataCalls]), hw, txWriteUnbuf_result]
  | true =>
    have hw := wrThrCall_of_fifo (k := ⟨s.chan, s.events, none⟩) d hf
    rw [quiet_onChannel_of_no_dataCalls (by rw [hw, txWriteFifo_dataCalls]), hw, txWriteFifo_result]

/-- Settles O15: the TSR is busy after the write either way, so neither empty flag can be set. -/
theorem thrWriteUnbuffered : Obligations.ThrWriteUnbuffered := by
  unfold Obligations.ThrWriteUnbuffered
  intro s d
  refine ⟨fun hdlab => State.writeDecodes rfl ?_, fun hf hb => ⟨_, rfl, ?_⟩, fun hf hb => ⟨_, rfl, ?_⟩⟩
  · simp only [Instr.condition, Channel.view, hdlab, Bool.not_false]
  · refine (s.quiet_wrThr d).trans ?_
    rw [wrThrCall_of_unbuffered d hf, txWriteUnbuf_ch_of_idle d hf hb]
    rfl
  · refine (s.quiet_wrThr d).trans ?_
    rw [wrThrCall_of_unbuffered d hf, txWriteUnbuf_ch_of_busy d hf hb]
    rfl

section Fifo
variable {c : Channel} {k : Call} (v : Byte)

/-- The channel of a FIFO THR write once the byte is stored and the empty flags and the THRE source are cleared
(R906). -/
def Channel.thrFlagged (v : Byte) (c : Channel) : Channel :=
  { c with thr := v, lsr := c.lsr &&& 0x9F, pending := c.pending &&& 0x1D }.identified

/-- The transmitter of a FIFO THR write once the byte is queued and an idle TSR loaded, before the flags follow
(R906). -/
def Channel.thrQueued (v : Byte) (c : Channel) : Channel := startIfIdle (queueTx v (c.thrFlagged v))

theorem txWriteFifo_ch : (txWriteFifo v k).ch = (updateTxFlags (k.modify (Channel.thrQueued v))).ch := by
  rw [txWriteFifo_eq, updateTxFlags_ch, updateTxFlags_ch]
  simp only [Call.modify_ch, clear_ch, setBit_tx_none]
  rfl

/-- A variant with the FIFO discipline has FIFOs of some depth (R101). -/
theorem Channel.depth_pos_of_fifoOn (hf : c.fifoOn = true) : 0 < c.depth := by
  obtain ⟨hcap, -⟩ := c.fifoOn_iff.mp hf
  unfold Channel.depth
  revert hcap
  cases c.cfg.variant <;> decide

/-- The queue after a write: the byte behind the others, or lost where the FIFO is full (R906). -/
theorem queueTx_txContents (hok : c.tx.Ok c.depth) : (queueTx v c).txContents =
    if c.txContents.length < c.depth then c.txContents ++ [v] else c.txContents := by
  have hlen : c.txContents.length = c.tx.count := Fifo.contents_length ..
  rw [hlen, queueTx]
  split
  · next hroom => exact Fifo.contents_push v hok hroom
  · rfl

/-- After a write the queue holds a byte: a FIFO that could not take the new one is full of others (R906). -/
theorem queueTx_txContents_ne_nil (hf : c.fifoOn = true) (hok : c.tx.Ok c.depth) : (queueTx v c).txContents ≠ [] := by
  have hd := Channel.depth_pos_of_fifoOn hf
  rw [queueTx_txContents v hok]
  split
  · exact List.append_ne_nil_of_right_ne_nil _ (List.cons_ne_nil v [])
  · next hfull =>
    intro hnil
    rw [hnil] at hfull
    exact hfull hd

/-- An idle TSR takes the oldest byte of the queue, and the rest stays in order (R906). -/
theorem startIfIdle_of_cons {b : Byte} {rest : List Byte} (hb : c.tsrBusy = false) (hok : c.tx.Ok c.depth)
    (h : c.txContents = b :: rest) : startIfIdle c = txStart b { c with tx := c.tx.pop c.depth } ∧
      (startIfIdle c).txContents = rest := by
  obtain ⟨hc, hfront, hrest⟩ := Fifo.pop_of_contents_cons hok h
  have hs : startIfIdle c = txStart b { c with tx := c.tx.pop c.depth } := by
    rw [startIfIdle, if_neg (Bool.eq_false_iff.mp hb), txStartFromFifo, if_pos hc, hfront]
  rw [hs]
  exact ⟨rfl, hrest⟩

theorem startIfIdle_of_busy (hb : c.tsrBusy = true) : startIfIdle c = c := if_pos hb

theorem queueTx_eq : queueTx v c = { c with tx := (queueTx v c).tx } := by
  unfold queueTx
  split <;> rfl

theorem startIfIdle_eq : startIfIdle c = { c with
    tx := (startIfIdle c).tx
    tsrByte := (startIfIdle c).tsrByte
    tsrBusy := (startIfIdle c).tsrBusy
    txBits := (startIfIdle c).txBits } := by
  unfold startIfIdle txStartFromFifo
  split
  · rfl
  · split <;> rfl

/-- Queueing and loading leave all but the FIFO and the TSR. -/
theorem thrQueued_eq : c.thrQueued v = { c.thrFlagged v with
    tx := (c.thrQueued v).tx
    tsrByte := (c.thrQueued v).tsrByte
    tsrBusy := (c.thrQueued v).tsrBusy
    txBits := (c.thrQueued v).txBits } := by
  unfold Channel.thrQueued
  rw [startIfIdle_eq, queueTx_eq]

/-- A busy TSR keeps its byte, and the queue waits (R906). -/
theorem thrQueued_of_busy (hb : c.tsrBusy = true) :
    (c.thrQueued v).txContents = (queueTx v (c.thrFlagged v)).txContents ∧ (c.thrQueued v).tsrBusy = true ∧
    (c.thrQueued v).tsrByte = c.tsrByte ∧ (c.thrQueued v).txBits = c.txBits := by
  have hb' : (queueTx v (c.thrFlagged v)).tsrBusy = true := by rwa [queueTx_eq]
  rw [Channel.thrQueued, startIfIdle_of_busy hb']
  refine ⟨rfl, hb', ?_⟩
  rw [queueTx_eq]
  exact ⟨rfl, rfl⟩

/-- An idle TSR is loaded with the oldest byte of the queue, which may be the one just written (R906). -/
theorem thrQueued_of_idle (hf : c.fifoOn = true) (hok : c.tx.Ok c.depth) (hb : c.tsrBusy = false) :
    (queueTx v (c.thrFlagged v)).txContents = (c.thrQueued v).tsrByte :: (c.thrQueued v).txContents ∧
    (c.thrQueued v).tsrBusy = true ∧ (c.thrQueued v).txBits = frameBits c.lcr := by
  have hb' : (queueTx v (c.thrFlagged v)).tsrBusy = false := by rwa [queueTx_eq]
  have hok' : (queueTx v (c.thrFlagged v)).tx.Ok (queueTx v (c.thrFlagged v)).depth :=
    queueTx_txFifoOk (c := c.thrFlagged v) v hok
  obtain ⟨b, rest, hq⟩ := List.exists_cons_of_ne_nil (queueTx_txContents_ne_nil (c := c.thrFlagged v) v hf hok)
  obtain ⟨hs, hrest⟩ := startIfIdle_of_cons hb' hok' hq
  rw [Channel.thrQueued, hrest, hs, hq, queueTx_eq]
  exact ⟨rfl, rfl, rfl⟩

theorem thrQueued_tsrBusy (hf : c.fifoOn = true) (hok : c.tx.Ok c.depth) : (c.thrQueued v).tsrBusy = true := by
  cases hb : c.tsrBusy with
  | true =>
    obtain ⟨-, hbusy, -⟩ := thrQueued_of_busy v hb
    exact hbusy
  | false =>
    obtain ⟨-, hbusy, -⟩ := thrQueued_of_idle v hf hok hb
    exact hbusy

theorem and_txFlags_mask : ∀ v : Byte, v &&& 0x9F &&& 0x9F = v &&& 0x9F ∧ (v &&& 0x9F).getLsbD 5 = false := by decide

/-- The flags and the THRE source after a FIFO write follow what the TSR has left of the queue (R903, R906). -/
theorem txWriteFifo_ch_of_fifo (hf : k.ch.fifoOn = true) (hok : k.ch.tx.Ok k.ch.depth) : (txWriteFifo v k).ch =
    { k.ch.thrQueued v with
      lsr := (k.ch.lsr &&& 0x9F) ||| (if (k.ch.thrQueued v).txContents = [] then 0x20 else 0x00)
      pending := (k.ch.pending &&& 0x1D) ||| (if (k.ch.thrQueued v).txContents = [] then 0x02 else 0x00)
    }.identified := by
  have hbusy := thrQueued_tsrBusy v hf hok
  have heq := thrQueued_eq (c := k.ch) v
  obtain ⟨hmask, h5⟩ := and_txFlags_mask k.ch.lsr
  have hlsr : (k.ch.thrQueued v).lsr = k.ch.lsr &&& 0x9F := by rw [heq]; rfl
  have hpending : (k.ch.thrQueued v).pending = k.ch.pending &&& 0x1D := by rw [heq]; rfl
  have hfifo : (k.ch.thrQueued v).fifoOn = true := by rw [heq]; exact hf
  have hheld := Channel.holdingEmpty_of_fifo hfifo
  rw [txWriteFifo_ch]
  by_cases hnil : (k.ch.thrQueued v).txContents = []
  · have hflags := updateTxFlags_ch_of_rising (k := k.modify (Channel.thrQueued v)) hbusy
      (hheld.trans (decide_eq_true hnil)) (hlsr ▸ h5)
    simp only [hflags, Call.modify_ch, hlsr, hmask, hpending, if_pos hnil]
  · have hflags := updateTxFlags_ch_of_waiting (k := k.modify (Channel.thrQueued v)) hbusy
      (hheld.trans (decide_eq_false hnil))
    have hid : ({ k.ch.thrQueued v with lsr := k.ch.lsr &&& 0x9F } : Channel).IdentificationOk := by
      rw [heq]
      exact ⟨rfl, rfl⟩
    have hlsr0 (v : Byte) : v ||| 0x00 = v := BitVec.or_zero
    have hpending0 (p : BitVec 5) : p ||| 0x00 = p := BitVec.or_zero
    simp only [hflags, Call.modify_ch, hlsr, hmask, if_neg hnil, hlsr0, hpending0]
    rw [← hpending, Channel.identified_eq hid]

end Fifo

/-- Settles O16: the queue is what stands in the FIFO before an idle TSR takes its oldest byte. -/
theorem thrWriteFifo : Obligations.ThrWriteFifo := by
  unfold Obligations.ThrWriteFifo
  intro s d hf hok
  have hch : (wrThrCall d ⟨s.chan, s.events, none⟩).ch = _ :=
    (congrArg Call.ch (wrThrCall_of_fifo d hf)).trans (txWriteFifo_ch_of_fifo d hf hok)
  refine ⟨s.onChannel (wrThrCall d), (queueTx d (s.chan.thrFlagged d)).txContents, rfl,
    queueTx_txContents (c := s.chan.thrFlagged d) d hok, fun hb => ?_, fun hb => ?_, ?_⟩
  · obtain ⟨hqueue, -, hbyte, hbits⟩ := thrQueued_of_busy d hb
    rw [State.onChannel_chan, hch]
    exact ⟨hqueue, hbyte, hbits⟩
  · obtain ⟨hqueue, -, hbits⟩ := thrQueued_of_idle d hf hok hb
    rw [State.onChannel_chan, hch]
    exact ⟨hqueue, hbits⟩
  · have heq := thrQueued_eq (c := s.chan) d
    rw [thrQueued_tsrBusy d hf hok] at heq
    rw [s.quiet_wrThr d, State.onChannel_chan, hch, heq]
    rfl

end Sys2Proof.Machine
end

section
/-! The parts of a tick (R1005, R1007): the countdowns, the receiver's step, the transmitter's step and the reload.
The receiver's side leaves the transmitter with its flags and its source as they are (`Channel.ReceivesOnly`), and the
transmitter's step leaves the receiver with its flags and its sources (`Channel.TransmitsOnly`). -/

namespace Sys2Proof.Machine

section Parts
variable (k : Call)

/-- The part of a tick before its service step: the timeout and the baud countdown (R1005). -/
def countDown (k : Call) : Call := (timeoutStep k).modify fun c => { c with baudCnt := c.baudCnt - 1 }

/-- The receiver's part of a service step (R1007). -/
def receiveStep (k : Call) : Call := if k.ch.rxDisabled then k else rxServiceStep k

/-- A tick's part up to the transmitter's step, where it is a service step. -/
def receivePhase (k : Call) : Call := receiveStep (countDown k)

/-- The transmitter's part of a service step (R1007). -/
def transmitStep (k : Call) : Call := if k.ch.txDisabled then k else txServiceStep k

/-- The countdown loaded with the baud constant, as a service step leaves it (R1005). -/
def Channel.reloaded (c : Channel) : Channel := { c with baudCnt := c.baudConst }

theorem serviceStep_eq : serviceStep k = (transmitStep (receiveStep k)).modify Channel.reloaded := rfl

theorem countDown_baudCnt : (countDown k).ch.baudCnt = k.ch.baudCnt - 1 :=
  congrArg (· - 1) (timeoutStep_baudCnt k)

variable {k}

/-- A countdown at 1 makes the tick a service step. -/
theorem tickCall_of_service (h : k.ch.baudCnt = 1) :
    tickCall k = (transmitStep (receivePhase k)).modify Channel.reloaded := by
  have h0 : (countDown k).ch.baudCnt = 0 := by rw [countDown_baudCnt, h]
  rw [receivePhase, ← serviceStep_eq]
  exact if_pos h0

/-- Above 1 the tick only counts. -/
theorem tickCall_of_wait (h : 1 < k.ch.baudCnt) : tickCall k = countDown k := by
  have h0 : (countDown k).ch.baudCnt ≠ 0 := by rw [countDown_baudCnt]; omega
  exact if_neg h0

end Parts

/-- A source that is not raised stays as it was (R801). -/
theorem getLsbD_not_raised (p : BitVec 5) {src : BitVec 5} {b : Nat} (hs : src.getLsbD b = false) :
    (p ||| src).getLsbD b = p.getLsbD b := by
  rw [BitVec.getLsbD_or, hs, Bool.or_false]

/-- A source that is raised is pending (R801). -/
theorem getLsbD_raised_self (p : BitVec 5) {src : BitVec 5} {b : Nat} (hs : src.getLsbD b = true) :
    (p ||| src).getLsbD b = true := by
  rw [BitVec.getLsbD_or, hs, Bool.or_true]

theorem setBit_dr_flags : ∀ (v : Byte) (x : Bool),
    (setBit v 0 x).extractLsb' 5 2 = v.extractLsb' 5 2 := by decide
theorem setBit_oe_flags : ∀ (v : Byte) (x : Bool),
    (setBit v 1 x).extractLsb' 5 2 = v.extractLsb' 5 2 := by decide

/-- Between two channels only the receiver, its flags and sources, the countdowns and the identification differ. -/
structure Channel.ReceivesOnly (c c' : Channel) : Prop where
  frame : c' = { c with
    rbr := c'.rbr, lsr := c'.lsr, pending := c'.pending, iirId := c'.iirId, intLine := c'.intLine,
    rx := c'.rx, toArmed := c'.toArmed, toCnt := c'.toCnt, rxIn := c'.rxIn, baudCnt := c'.baudCnt }
  flags : c'.lsr.extractLsb' 5 2 = c.lsr.extractLsb' 5 2
  thre  : c'.pending.getLsbD 1 = c.pending.getLsbD 1

/-- What the countdowns can do (R1005, R1010): the timeout counts and may raise CTI, the other sources stay. -/
structure Channel.CountsDown (c c' : Channel) : Prop where
  frame : c' = { c with
    pending := c'.pending, iirId := c'.iirId, intLine := c'.intLine, toArmed := c'.toArmed, toCnt := c'.toCnt,
    baudCnt := c'.baudCnt }
  thre : c'.pending.getLsbD 1 = c.pending.getLsbD 1
  rls : c'.pending.getLsbD 2 = c.pending.getLsbD 2
  unexpired : c.NoExpiry → c'.pending = c.pending
  timeout : c.TimeoutCounts c'

/-- The timeout step leaves the sources that are none of CTI (R1010). -/
theorem timeoutStep_pending_getLsbD (k : Call) {b : Nat} (hb : srcCti.getLsbD b = false) :
    (timeoutStep k).ch.pending.getLsbD b = k.ch.pending.getLsbD b := by
  rw [timeoutStep_ch]
  split
  · split
    · exact getLsbD_not_raised k.ch.pending hb
    · rfl
  · rfl

theorem timeoutStep_countsDown (k : Call) : k.ch.CountsDown (timeoutStep k).ch where
  frame := by
    rw [timeoutStep_ch]
    split
    · split <;> rfl
    · rfl
  thre := timeoutStep_pending_getLsbD k rfl
  rls := timeoutStep_pending_getLsbD k rfl
  unexpired h := by rw [timeoutStep_ch_of_noExpiry k h]
  timeout := timeoutStep_counts k

theorem countDown_countsDown (k : Call) : k.ch.CountsDown (countDown k).ch := by
  have ht := timeoutStep_countsDown k
  exact ⟨by rw [countDown, Call.modify_ch, ht.frame], ht.thre, ht.rls, ht.unexpired,
    ht.timeout.counts, ht.timeout.fires, ht.timeout.idle⟩

section Receive
variable {c c' c'' : Channel} {k : Call}

theorem Channel.ReceivesOnly.trans (h : c.ReceivesOnly c') (h' : c'.ReceivesOnly c'') : c.ReceivesOnly c'' where
  frame := by rw [h'.frame, h.frame]
  flags := h'.flags.trans h.flags
  thre := h'.thre.trans h.thre

/-- A source other than THRE is raised. -/
theorem Channel.ReceivesOnly.thenTrigger {src : BitVec 5} (h : c.ReceivesOnly k.ch) (hs : src.getLsbD 1 = false) :
    c.ReceivesOnly (trigger src k).ch :=
  h.trans ⟨rfl, rfl, getLsbD_not_raised k.ch.pending hs⟩

theorem Channel.CountsDown.receivesOnly (h : c.CountsDown c') : c.ReceivesOnly c' where
  frame := by rw [h.frame]
  flags := by rw [h.frame]
  thre := h.thre

theorem rxAcceptUnbuf_receivesOnly (b : Byte) (k : Call) : k.ch.ReceivesOnly (rxAcceptUnbuf b k).ch := by
  unfold rxAcceptUnbuf
  split
  · exact .thenTrigger (k := k.modify fun c => { c with lsr := setBit c.lsr 1 true })
      ⟨rfl, setBit_oe_flags .., rfl⟩ rfl
  · exact .thenTrigger (k := k.modify fun c => { c with rbr := b, lsr := setBit c.lsr 0 true })
      ⟨rfl, setBit_dr_flags .., rfl⟩ rfl

theorem rxAcceptFifo_receivesOnly (b : Byte) (k : Call) : k.ch.ReceivesOnly (rxAcceptFifo b k).ch := by
  have hput : k.ch.ReceivesOnly (k.modify fun c =>
    armTimeout { c with rx := c.rx.push c.depth b, lsr := setBit c.lsr 0 true }).ch := ⟨rfl, setBit_dr_flags .., rfl⟩
  unfold rxAcceptFifo
  dsimp only
  split
  · exact .thenTrigger (k := k.modify fun c => { c with lsr := setBit c.lsr 1 true })
      ⟨rfl, setBit_oe_flags .., rfl⟩ rfl
  · split
    · exact hput.thenTrigger rfl
    · exact hput

theorem receiveStep_receivesOnly (k : Call) : k.ch.ReceivesOnly (receiveStep k).ch := by
  have hcall : k.ch.ReceivesOnly (callRx k).ch := ⟨rfl, rfl, rfl⟩
  unfold receiveStep rxServiceStep rxAccept
  split
  · exact ⟨rfl, rfl, rfl⟩
  · split
    · exact hcall
    · split
      · exact hcall.trans (rxAcceptFifo_receivesOnly ..)
      · exact hcall.trans (rxAcceptUnbuf_receivesOnly ..)

/-- The transmitter's own state is as it was. -/
theorem Channel.ReceivesOnly.transmitter (h : c.ReceivesOnly c') : c'.tsrBusy = c.tsrBusy ∧ c'.tsrByte = c.tsrByte ∧
    c'.txBits = c.txBits ∧ c'.thrPending = c.thrPending ∧ c'.tx = c.tx := by
  rw [h.frame]
  exact ⟨rfl, rfl, rfl, rfl, rfl⟩

/-- The configuration and the registers the pipeline reads are as they were, and so is what is derived from them. -/
theorem Channel.ReceivesOnly.settings (h : c.ReceivesOnly c') : c'.cfg = c.cfg ∧ c'.depth = c.depth ∧
    c'.fifoOn = c.fifoOn ∧ c'.trigLevel = c.trigLevel ∧ c'.lcr = c.lcr ∧ c'.baudConst = c.baudConst ∧
    c'.rxDisabled = c.rxDisabled ∧ c'.txDisabled = c.txDisabled := by
  rw [h.frame]
  exact ⟨rfl, rfl, rfl, rfl, rfl, rfl, rfl, rfl⟩

end Receive

/-- The answer the callback gives in a service step: none is asked for with the receiver disabled (R911, R1007). -/
def Channel.receiveCalls (c : Channel) : List Event :=
  if c.rxDisabled then [] else [.receiveByte c.cfg.handle c.cfg.sub c.nextAnswer]

theorem receiveStep_dataCalls (k : Call) :
    dataCalls (receiveStep k).events = dataCalls k.events ++ k.ch.receiveCalls := by
  unfold receiveStep Channel.receiveCalls
  split
  · exact (List.append_nil _).symm
  · exact rxServiceStep_dataCalls k

/-- The countdowns do not touch what decides on the call. -/
theorem countDown_receiveCalls (k : Call) : (countDown k).ch.receiveCalls = k.ch.receiveCalls := by
  rw [(countDown_countsDown k).frame]
  rfl

@[simp] theorem countDown_dataCalls (k : Call) : dataCalls (countDown k).events = dataCalls k.events :=
  timeoutStep_dataCalls k

theorem receivePhase_dataCalls (k : Call) :
    dataCalls (receivePhase k).events = dataCalls k.events ++ k.ch.receiveCalls := by
  rw [receivePhase, receiveStep_dataCalls, countDown_dataCalls, countDown_receiveCalls]

theorem receivePhase_receivesOnly (k : Call) : k.ch.ReceivesOnly (receivePhase k).ch :=
  (countDown_countsDown k).receivesOnly.trans (receiveStep_receivesOnly _)

section Transmit
variable {k : Call}

theorem transmitStep_of_idle (h : k.ch.txDisabled = true ∨ k.ch.tsrBusy = false) : transmitStep k = k := by
  unfold transmitStep txServiceStep
  split
  · rfl
  · next hd => exact if_neg (Bool.eq_false_iff.mp (h.resolve_left hd))

/-- With more than one bit left the step takes one (R908). -/
theorem transmitStep_of_bits (hd : k.ch.txDisabled = false) (hb : k.ch.tsrBusy = true) (hn : 1 < k.ch.txBits) :
    transmitStep k = k.modify fun c => { c with txBits := c.txBits - 1 } := by
  have hleft : k.ch.txBits - 1 ≠ 0 := by omega
  rw [transmitStep, if_neg (Bool.eq_false_iff.mp hd), txServiceStep, if_pos hb]
  exact if_neg hleft

/-- The last bit completes the byte (R908). -/
theorem transmitStep_of_last_bit (hd : k.ch.txDisabled = false) (hb : k.ch.tsrBusy = true) (hn : k.ch.txBits = 1) :
    transmitStep k = txComplete (k.modify fun c => { c with txBits := c.txBits - 1 }) := by
  have hleft : k.ch.txBits - 1 = 0 := by omega
  rw [transmitStep, if_neg (Bool.eq_false_iff.mp hd), txServiceStep, if_pos hb]
  exact if_pos hleft

end Transmit

/-- Settles O31: the countdowns and the receiver leave the transmitter's step the state it has before the tick. -/
theorem tickTransmitsBitByBit : Obligations.TickTransmitsBitByBit := by
  unfold Obligations.TickTransmitsBitByBit
  intro s hcnt hok
  have hrcv := receivePhase_receivesOnly ⟨s.chan, s.events, none⟩
  have hcalls := receivePhase_dataCalls ⟨s.chan, s.events, none⟩
  have htick := tickCall_of_service (k := ⟨s.chan, s.events, none⟩) hcnt
  generalize receivePhase ⟨s.chan, s.events, none⟩ = p at hrcv hcalls htick
  obtain ⟨hbusy, hbyte, hbits, hthr, htx⟩ := hrcv.transmitter
  obtain ⟨hcfg, hdepth, -, -, -, hbaud, -, hdis⟩ := hrcv.settings
  refine ⟨s.onChannel tickCall, s.chan.receiveCalls, rfl, rfl, fun h => ?_, fun hd hb hn => ?_, fun hd hb hn => ?_⟩
  · rw [State.onChannel_events, State.onChannel_chan, htick, transmitStep_of_idle (by rwa [hdis, hbusy])]
    exact ⟨hcalls, hbusy, hbyte, hbits, hthr, htx, hrcv.flags, hrcv.thre⟩
  · rw [State.onChannel_events, State.onChannel_chan, htick,
      transmitStep_of_bits (hdis.trans hd) (hbusy.trans hb) (hbits ▸ hn)]
    exact ⟨hcalls, hbusy.trans hb, hbyte, congrArg (· - 1) hbits, hthr, htx, hrcv.flags, hrcv.thre⟩
  · rw [State.onChannel_events, State.onChannel_chan, htick,
      transmitStep_of_last_bit (hdis.trans hd) (hbusy.trans hb) (hbits.trans hn)]
    have hdone := txComplete_completesTo (k := p.modify fun c => { c with txBits := c.txBits - 1 }) (htx ▸ hdepth ▸ hok)
    refine ⟨?_, _, _, hdone, ?_, hrcv.flags, hrcv.thre, ?_⟩
    · simp only [Call.modify_events, Call.modify_ch, txComplete_dataCalls, hcalls, hcfg, hbyte]
    · rw [Call.modify_ch, hrcv.frame]
    · rw [Call.modify_ch, Channel.reloaded, (txComplete_onlyTransmitter _).baudConst_eq, ← hbaud]
      rfl

end Sys2Proof.Machine
end

section
/-! The receiver's side of a service step (R909 to R911): what is observed of the receiver (`Channel.receiver`), what
each answer of the callback does to it, and that the transmitter's step which follows leaves it. -/

namespace Sys2Proof.Machine

/-- What is observed of a channel's receiver: the bytes kept, LSR[4:0], the two sources it raises, the timeout and the
answers still to come. -/
@[ext] structure Receiver where
  rbr : Byte
  rx : Fifo
  low : BitVec 5
  rda : Bool
  rls : Bool
  toArmed : Bool
  toCnt : Nat
  rxIn : List (Option Byte)

/-- The receiver as it stands in the channel. -/
def Channel.receiver (c : Channel) : Receiver where
  rbr := c.rbr
  rx := c.rx
  low := c.lsr.extractLsb' 0 5
  rda := c.pending.getLsbD 0
  rls := c.pending.getLsbD 2
  toArmed := c.toArmed
  toCnt := c.toCnt
  rxIn := c.rxIn

theorem Channel.rxContents_length (c : Channel) : c.rxContents.length = c.rx.count := Fifo.contents_length ..

theorem setBit_dr_low : ∀ v : Byte, (setBit v 0 true).extractLsb' 0 5 = v.extractLsb' 0 5 ||| 0x01 := by decide
theorem setBit_oe_low : ∀ v : Byte, (setBit v 1 true).extractLsb' 0 5 = v.extractLsb' 0 5 ||| 0x02 := by decide

section Transmitter
variable {c c' : Channel} (k : Call)

theorem Channel.OnlyQueues.receiver_eq (h : c.OnlyQueues c') : c'.receiver = c.receiver := by
  unfold Channel.OnlyQueues at h
  rw [h]
  rfl

/-- The empty flags and the THRE source are none of the receiver's (R903). -/
theorem updateTxFlags_receiver : (updateTxFlags k).ch.receiver = k.ch.receiver := by
  obtain ⟨-, -, hlow, -⟩ := setBit_tx_bits k.ch.lsr k.ch.holdingEmpty k.ch.transmitterEmpty
  have hrda := getLsbD_not_raised (src := srcThre) (b := 0) k.ch.pending rfl
  have hrls := getLsbD_not_raised (src := srcThre) (b := 2) k.ch.pending rfl
  rw [updateTxFlags_ch]
  split
  · exact Receiver.ext rfl rfl hlow hrda hrls rfl rfl rfl
  · exact Receiver.ext rfl rfl hlow rfl rfl rfl rfl rfl

theorem txComplete_receiver : (txComplete k).ch.receiver = k.ch.receiver := by
  rw [txComplete_ch, updateTxFlags_receiver]
  exact (loadNext_onlyQueues k.ch.idled).receiver_eq

theorem transmitStep_receiver : (transmitStep k).ch.receiver = k.ch.receiver := by
  unfold transmitStep txServiceStep
  dsimp only
  split
  · rfl
  · split
    · split
      · exact txComplete_receiver _
      · rfl
    · rfl

end Transmitter

section Answers
variable {k : Call} {b : Byte}

theorem receiveStep_of_disabled (hd : k.ch.rxDisabled = true) : receiveStep k = k := if_pos hd

/-- The answer `NONE` is used up and changes nothing else (R911). -/
theorem receiveStep_of_none (hd : k.ch.rxDisabled = false) (ha : k.ch.nextAnswer = none) :
    (receiveStep k).ch = { k.ch with rxIn := k.ch.rxIn.tail } := by
  rw [receiveStep, if_neg (Bool.eq_false_iff.mp hd), rxServiceStep, ha]
  rfl

/-- A byte is taken by the discipline's procedure (R911). -/
theorem receiveStep_of_byte (hd : k.ch.rxDisabled = false) (ha : k.ch.nextAnswer = some b) :
    receiveStep k = if k.ch.fifoOn then rxAcceptFifo b (callRx k) else rxAcceptUnbuf b (callRx k) := by
  rw [receiveStep, if_neg (Bool.eq_false_iff.mp hd), rxServiceStep, ha]
  rfl

/-- A byte that finds DR clear goes into RBR (R909). -/
theorem rxAcceptUnbuf_receiver_of_read (h : k.ch.lsr.getLsbD 0 = false) : (rxAcceptUnbuf b k).ch.receiver =
    { k.ch.receiver with rbr := b, low := k.ch.receiver.low ||| 0x01, rda := true } := by
  have hrda : (k.ch.pending ||| srcRda).getLsbD 0 = true := getLsbD_raised_self _ rfl
  have hrls := getLsbD_not_raised (src := srcRda) (b := 2) k.ch.pending rfl
  rw [rxAcceptUnbuf, if_neg (Bool.eq_false_iff.mp h)]
  exact Receiver.ext rfl rfl (setBit_dr_low _) hrda hrls rfl rfl rfl

/-- A byte that finds the last one unread is lost to an overrun (R909). -/
theorem rxAcceptUnbuf_receiver_of_unread (h : k.ch.lsr.getLsbD 0 = true) : (rxAcceptUnbuf b k).ch.receiver =
    { k.ch.receiver with low := k.ch.receiver.low ||| 0x02, rls := true } := by
  have hrda := getLsbD_not_raised (src := srcRls) (b := 0) k.ch.pending rfl
  have hrls : (k.ch.pending ||| srcRls).getLsbD 2 = true := getLsbD_raised_self _ rfl
  rw [rxAcceptUnbuf, if_pos h]
  exact Receiver.ext rfl rfl (setBit_oe_low _) hrda hrls rfl rfl rfl

/-- A byte that finds the FIFO full is lost to an overrun (R910). -/
theorem rxAcceptFifo_receiver_of_full (h : k.ch.rx.count = k.ch.depth) : (rxAcceptFifo b k).ch.receiver =
    { k.ch.receiver with low := k.ch.receiver.low ||| 0x02, rls := true } := by
  have hrda := getLsbD_not_raised (src := srcRls) (b := 0) k.ch.pending rfl
  have hrls : (k.ch.pending ||| srcRls).getLsbD 2 = true := getLsbD_raised_self _ rfl
  rw [rxAcceptFifo, if_pos h]
  exact Receiver.ext rfl rfl (setBit_oe_low _) hrda hrls rfl rfl rfl

/-- Otherwise the byte goes into the FIFO and arms the timeout, and RDA is raised from the trigger level on (R910). -/
theorem rxAcceptFifo_receiver_of_room (h : k.ch.rx.count ≠ k.ch.depth) : (rxAcceptFifo b k).ch.receiver =
    { k.ch.receiver with
      rx := k.ch.receiver.rx.push k.ch.depth b
      low := k.ch.receiver.low ||| 0x01
      rda := k.ch.receiver.rda || decide (k.ch.trigLevel ≤ k.ch.receiver.rx.count + 1)
      toArmed := true
      toCnt := k.ch.timeoutTicks } := by
  rw [rxAcceptFifo, if_neg h]
  dsimp only
  split
  · next htrig =>
    have htrig : k.ch.trigLevel ≤ k.ch.rx.count + 1 := htrig
    have hrda : (k.ch.pending ||| srcRda).getLsbD 0 =
        (k.ch.pending.getLsbD 0 || decide (k.ch.trigLevel ≤ k.ch.rx.count + 1)) := by
      rw [getLsbD_raised_self _ rfl, decide_eq_true htrig, Bool.or_true]
    have hrls := getLsbD_not_raised (src := srcRda) (b := 2) k.ch.pending rfl
    exact Receiver.ext rfl rfl (setBit_dr_low _) hrda hrls rfl rfl rfl
  · next htrig =>
    have htrig : ¬k.ch.trigLevel ≤ k.ch.rx.count + 1 := htrig
    have hrda : k.ch.pending.getLsbD 0 =
        (k.ch.pending.getLsbD 0 || decide (k.ch.trigLevel ≤ k.ch.rx.count + 1)) := by
      rw [decide_eq_false htrig, Bool.or_false]
    exact Receiver.ext rfl rfl (setBit_dr_low _) hrda rfl rfl rfl rfl

end Answers

section CountDown
variable {c c' : Channel}

/-- The countdowns touch no more of the receiver than RDA and the timeout. -/
theorem Channel.CountsDown.receiver_eq (h : c.CountsDown c') : c'.receiver = { c.receiver with
    rda := c'.pending.getLsbD 0, toArmed := c'.toArmed, toCnt := c'.toCnt } := by
  have hrls := h.rls
  rw [h.frame] at hrls ⊢
  exact Receiver.ext rfl rfl rfl rfl hrls rfl rfl rfl

/-- In the unbuffered discipline they touch nothing of it (R1010). -/
theorem Channel.CountsDown.receiver_of_unbuffered (h : c.CountsDown c') (hf : c.fifoOn = false) :
    c'.receiver = c.receiver := by
  have hp := h.unexpired fun _ hf' => absurd (hf.symm.trans hf') Bool.false_ne_true
  obtain ⟨ha, hc⟩ := h.timeout.idle (.inr hf)
  rw [h.receiver_eq, hp, ha, hc]
  rfl

/-- They leave what decides on the byte offered. -/
theorem Channel.CountsDown.offer (h : c.CountsDown c') : c'.lsr = c.lsr ∧ c'.rx = c.rx ∧ c'.rxIn = c.rxIn ∧
    c'.nextAnswer = c.nextAnswer ∧ c'.timeoutTicks = c.timeoutTicks := by
  rw [h.frame]
  exact ⟨rfl, rfl, rfl, rfl, rfl⟩

end CountDown

section Poll
variable (k : Call)

theorem callRx_receiver :
    (callRx k).ch.receiver = { k.ch.receiver with rxIn := k.ch.receiver.rxIn.tail } := rfl

/-- The transmitter's step polls no answer. -/
theorem transmitStep_polled (h : Handle) : polled h (transmitStep k).events = polled h k.events := by
  rw [← polled_dataCalls, ← polled_dataCalls h k.events]
  unfold transmitStep
  split
  · rfl
  · rw [txServiceStep_dataCalls, polled_append]
    split <;> exact List.append_nil _

theorem receivePhase_polled : polled k.ch.cfg.handle (receivePhase k).events = polled k.ch.cfg.handle k.events ++
    (if k.ch.rxDisabled then [] else [k.ch.nextAnswer]) := by
  rw [← polled_dataCalls, receivePhase_dataCalls, polled_append, polled_dataCalls, Channel.receiveCalls]
  split
  · rfl
  · rw [polled_receive]

/-- A byte the callback answers is taken by the discipline's procedure (R911). -/
theorem receivePhase_of_byte {k : Call} {b : Byte} (hd : k.ch.rxDisabled = false) (ha : k.ch.nextAnswer = some b) :
    receivePhase k =
      if k.ch.fifoOn then rxAcceptFifo b (callRx (countDown k)) else rxAcceptUnbuf b (callRx (countDown k)) := by
  obtain ⟨-, -, hfifo, -, -, -, hdis, -⟩ := (countDown_countsDown k).receivesOnly.settings
  obtain ⟨-, -, -, hans, -⟩ := (countDown_countsDown k).offer
  rw [receivePhase, receiveStep_of_byte (hdis.trans hd) (hans.trans ha), hfifo]

end Poll

section Tick
variable {k : Call} (h1 : k.ch.baudCnt = 1)
include h1

/-- The transmitter's step and the reload leave the receiver as the receiver's step has made it. -/
theorem tickCall_receiver : (tickCall k).ch.receiver = (receivePhase k).ch.receiver := by
  rw [tickCall_of_service h1]
  exact transmitStep_receiver _

/-- The callback is polled once a service step, unless the receiver is disabled (R911, R1007). -/
theorem tickCall_polled : polled k.ch.cfg.handle (tickCall k).events = polled k.ch.cfg.handle k.events ++
    (if k.ch.rxDisabled then [] else [k.ch.nextAnswer]) := by
  rw [tickCall_of_service h1, Call.modify_events, transmitStep_polled, receivePhase_polled]

theorem tickCall_receiver_of_disabled (hd : k.ch.rxDisabled = true) :
    (tickCall k).ch.receiver = (countDown k).ch.receiver := by
  obtain ⟨-, -, -, -, -, -, hdis, -⟩ := (countDown_countsDown k).receivesOnly.settings
  rw [tickCall_receiver h1, receivePhase, receiveStep_of_disabled (hdis.trans hd)]

variable (hd : k.ch.rxDisabled = false)
include hd

theorem tickCall_receiver_of_none (ha : k.ch.nextAnswer = none) :
    (tickCall k).ch.receiver = { (countDown k).ch.receiver with rxIn := k.ch.rxIn.tail } := by
  obtain ⟨-, -, -, -, -, -, hdis, -⟩ := (countDown_countsDown k).receivesOnly.settings
  obtain ⟨-, -, hrxIn, hans, -⟩ := (countDown_countsDown k).offer
  rw [tickCall_receiver h1, receivePhase, receiveStep_of_none (hdis.trans hd) (hans.trans ha), hrxIn]
  rfl

variable {b : Byte} (ha : k.ch.nextAnswer = some b)
include ha

/-- In the unbuffered discipline with DR clear (R909). -/
theorem tickCall_receiver_of_read (hf : k.ch.fifoOn = false) (hr : k.ch.lsr.getLsbD 0 = false) :
    (tickCall k).ch.receiver = { k.ch.receiver with
      rbr := b, low := k.ch.receiver.low ||| 0x01, rda := true, rxIn := k.ch.receiver.rxIn.tail } := by
  have hdown := countDown_countsDown k
  obtain ⟨hlsr, -⟩ := hdown.offer
  have hr' : (callRx (countDown k)).ch.lsr.getLsbD 0 = false := hlsr ▸ hr
  rw [tickCall_receiver h1, receivePhase_of_byte hd ha, if_neg (Bool.eq_false_iff.mp hf),
    rxAcceptUnbuf_receiver_of_read hr', callRx_receiver, hdown.receiver_of_unbuffered hf]

/-- In the unbuffered discipline with a byte unread (R909). -/
theorem tickCall_receiver_of_unread (hf : k.ch.fifoOn = false) (hr : k.ch.lsr.getLsbD 0 = true) :
    (tickCall k).ch.receiver = { k.ch.receiver with
      low := k.ch.receiver.low ||| 0x02, rls := true, rxIn := k.ch.receiver.rxIn.tail } := by
  have hdown := countDown_countsDown k
  obtain ⟨hlsr, -⟩ := hdown.offer
  have hr' : (callRx (countDown k)).ch.lsr.getLsbD 0 = true := hlsr ▸ hr
  rw [tickCall_receiver h1, receivePhase_of_byte hd ha, if_neg (Bool.eq_false_iff.mp hf),
    rxAcceptUnbuf_receiver_of_unread hr', callRx_receiver, hdown.receiver_of_unbuffered hf]

/-- In the FIFO discipline with the FIFO full: the timeout only counts (R910). -/
theorem tickCall_receiver_of_full (hf : k.ch.fifoOn = true) (hc : k.ch.rx.count = k.ch.depth) :
    (tickCall k).ch.receiver = { (countDown k).ch.receiver with
      low := k.ch.receiver.low ||| 0x02, rls := true, rxIn := k.ch.receiver.rxIn.tail } := by
  have hdown := countDown_countsDown k
  obtain ⟨-, hdepth, -⟩ := hdown.receivesOnly.settings
  obtain ⟨-, hrx, -⟩ := hdown.offer
  have hc' : (callRx (countDown k)).ch.rx.count = (callRx (countDown k)).ch.depth :=
    (congrArg Fifo.count hrx).trans (hc.trans hdepth.symm)
  rw [tickCall_receiver h1, receivePhase_of_byte hd ha, if_pos hf, rxAcceptFifo_receiver_of_full hc',
    callRx_receiver, hdown.receiver_eq]

/-- In the FIFO discipline with room for the byte (R910). -/
theorem tickCall_receiver_of_room (hf : k.ch.fifoOn = true) (hc : k.ch.rx.count ≠ k.ch.depth) :
    (tickCall k).ch.receiver = { k.ch.receiver with
      rx := k.ch.rx.push k.ch.depth b
      low := k.ch.receiver.low ||| 0x01
      rda := (countDown k).ch.pending.getLsbD 0 || decide (k.ch.trigLevel ≤ k.ch.rx.count + 1)
      toArmed := true
      toCnt := k.ch.timeoutTicks
      rxIn := k.ch.receiver.rxIn.tail } := by
  have hdown := countDown_countsDown k
  obtain ⟨-, hdepth, -, htrig, -⟩ := hdown.receivesOnly.settings
  obtain ⟨-, hrx, -, -, hticks⟩ := hdown.offer
  have hdepth' : (callRx (countDown k)).ch.depth = k.ch.depth := hdepth
  have htrig' : (callRx (countDown k)).ch.trigLevel = k.ch.trigLevel := htrig
  have hticks' : (callRx (countDown k)).ch.timeoutTicks = k.ch.timeoutTicks := hticks
  have hc' : (callRx (countDown k)).ch.rx.count ≠ (callRx (countDown k)).ch.depth := by
    rw [hdepth']
    exact (congrArg Fifo.count hrx).trans_ne hc
  rw [tickCall_receiver h1, receivePhase_of_byte hd ha, if_pos hf, rxAcceptFifo_receiver_of_room hc', hdepth', htrig',
    hticks', callRx_receiver, hdown.receiver_eq]
  rfl

end Tick

/-- Taking a byte uses up no further answer. -/
theorem rxAccept_rxIn (a : Option Byte) (k : Call) : (rxAccept a k).ch.rxIn = k.ch.rxIn := by
  cases a with
  | none => rfl
  | some b =>
    unfold rxAccept rxAcceptFifo rxAcceptUnbuf
    dsimp only
    split
    · split
      · rfl
      · split <;> rfl
    · split <;> rfl

/-- The bytes in the receive FIFO are told by the buffer, since no operation changes the depth. -/
theorem tickCall_rxContents (k : Call) : (tickCall k).ch.rxContents = (tickCall k).ch.rx.contents k.ch.depth := by
  rw [Channel.rxContents, Channel.depth, (tickCall_keepsLine (.refl k)).cfg]
  rfl

section Outcome
variable {k : Call} (h1 : k.ch.baudCnt = 1)
include h1

/-- The answers left: one less, unless the receiver is disabled (R911, R1007). -/
theorem tickCall_rxIn :
    (tickCall k).ch.rxIn = if k.ch.rxDisabled then k.ch.rxIn else k.ch.rxIn.tail := by
  obtain ⟨-, -, -, -, -, -, hdis, -⟩ := (countDown_countsDown k).receivesOnly.settings
  obtain ⟨-, -, hrxIn, -⟩ := (countDown_countsDown k).offer
  have htick : (tickCall k).ch.rxIn = (receivePhase k).ch.rxIn := congrArg Receiver.rxIn (tickCall_receiver h1)
  rw [htick, receivePhase, receiveStep, hdis, ← hrxIn]
  split
  · rfl
  · exact rxAccept_rxIn ..

/-- A service step without a byte leaves the receiver, but for the timeout and what it raises (R911, R1007). -/
theorem tickCall_of_silent (h : k.ch.rxDisabled = true ∨ k.ch.nextAnswer = none) :
    (tickCall k).ch.rbr = k.ch.rbr ∧ (tickCall k).ch.rx = k.ch.rx ∧
    (tickCall k).ch.lsr.extractLsb' 0 5 = k.ch.lsr.extractLsb' 0 5 ∧
    (tickCall k).ch.pending.getLsbD 2 = k.ch.pending.getLsbD 2 ∧
    (k.ch.NoExpiry → (tickCall k).ch.pending.getLsbD 0 = k.ch.pending.getLsbD 0) := by
  have hdown := countDown_countsDown k
  have hrcv : ∃ answers, (tickCall k).ch.receiver = { (countDown k).ch.receiver with rxIn := answers } := by
    cases hd : k.ch.rxDisabled with
    | true => exact ⟨_, tickCall_receiver_of_disabled h1 hd⟩
    | false => exact ⟨_, tickCall_receiver_of_none h1 hd (h.resolve_left (Bool.eq_false_iff.mp hd))⟩
  obtain ⟨_, hrcv⟩ := hrcv
  rw [hdown.receiver_eq] at hrcv
  obtain ⟨hrbr, hrx, hlow, hrda, hrls, -⟩ := Receiver.mk.inj hrcv
  exact ⟨hrbr, hrx, hlow, hrls, fun he => hrda.trans (congrArg (BitVec.getLsbD · 0) (hdown.unexpired he))⟩

/-- A byte that finds the FIFO full: the FIFO and RDA are as before, and the timeout only counts (R910, R1010). -/
theorem tickCall_of_full {b : Byte} (hd : k.ch.rxDisabled = false) (ha : k.ch.nextAnswer = some b)
    (hf : k.ch.fifoOn = true) (hc : k.ch.rx.count = k.ch.depth) :
    (tickCall k).ch.rx = k.ch.rx ∧ (tickCall k).ch.pending.getLsbD 2 = true ∧ k.ch.TimeoutCounts (tickCall k).ch ∧
    (k.ch.NoExpiry → (tickCall k).ch.pending.getLsbD 0 = k.ch.pending.getLsbD 0) ∧
    (tickCall k).ch.lsr.extractLsb' 0 5 = k.ch.lsr.extractLsb' 0 5 ||| 0x02 := by
  have hdown := countDown_countsDown k
  have hrcv := tickCall_receiver_of_full h1 hd ha hf hc
  rw [hdown.receiver_eq] at hrcv
  obtain ⟨-, hrx, hlow, hrda, hrls, harmed, hcnt, -⟩ := Receiver.mk.inj hrcv
  have htimeout : k.ch.TimeoutCounts (tickCall k).ch := by
    obtain ⟨hcounts, hfires, hidle⟩ := hdown.timeout
    exact ⟨harmed ▸ hcnt ▸ hcounts, harmed ▸ hcnt ▸ hfires, harmed ▸ hcnt ▸ hidle⟩
  exact ⟨hrx, hrls, htimeout, fun he => hrda.trans (congrArg (BitVec.getLsbD · 0) (hdown.unexpired he)), hlow⟩

/-- A byte that the FIFO has room for: it is stored, DR is set and the timeout armed in full, and RDA is raised from
the trigger level on (R910, R1009). -/
theorem tickCall_of_room {b : Byte} (hok : k.ch.rx.Ok k.ch.depth) (hd : k.ch.rxDisabled = false)
    (ha : k.ch.nextAnswer = some b) (hf : k.ch.fifoOn = true) (hc : k.ch.rx.count < k.ch.depth) :
    (tickCall k).ch.rxContents = k.ch.rxContents ++ [b] ∧
    (tickCall k).ch.lsr.extractLsb' 0 5 = k.ch.lsr.extractLsb' 0 5 ||| 0x01 ∧
    (tickCall k).ch.toArmed = true ∧ (tickCall k).ch.toCnt = k.ch.timeoutTicks ∧
    (tickCall k).ch.pending.getLsbD 2 = k.ch.pending.getLsbD 2 ∧
    (k.ch.trigLevel ≤ k.ch.rx.count + 1 → (tickCall k).ch.pending.getLsbD 0 = true) ∧
    (k.ch.rx.count + 1 < k.ch.trigLevel → k.ch.NoExpiry →
      (tickCall k).ch.pending.getLsbD 0 = k.ch.pending.getLsbD 0) := by
  obtain ⟨-, hrx, hlow, hrda, hrls, harmed, hcnt, -⟩ :=
    Receiver.mk.inj (tickCall_receiver_of_room h1 hd ha hf (Nat.ne_of_lt hc))
  refine ⟨?_, hlow, harmed, hcnt, hrls, fun ht => ?_, fun ht he => ?_⟩
  · rw [tickCall_rxContents, hrx]
    exact Fifo.contents_push b hok hc
  · rw [hrda, decide_eq_true ht, Bool.or_true]
  · rw [hrda, (countDown_countsDown k).unexpired he, decide_eq_false (Nat.not_le.mpr ht), Bool.or_false]


variable {b : Byte} (hd : k.ch.rxDisabled = false) (ha : k.ch.nextAnswer = some b)
include hd ha

/-- A byte in the FIFO discipline leaves RBR, kept or discarded (R910). -/
theorem tickCall_rbr_of_fifo (hf : k.ch.fifoOn = true) : (tickCall k).ch.rbr = k.ch.rbr := by
  by_cases hc : k.ch.rx.count = k.ch.depth
  · have hrcv := tickCall_receiver_of_full h1 hd ha hf hc
    rw [(countDown_countsDown k).receiver_eq] at hrcv
    exact congrArg Receiver.rbr hrcv
  · exact congrArg Receiver.rbr (tickCall_receiver_of_room h1 hd ha hf hc)

/-- A byte in the unbuffered discipline leaves the FIFO, kept or discarded (R909). -/
theorem tickCall_rx_of_unbuffered (hf : k.ch.fifoOn = false) : (tickCall k).ch.rx = k.ch.rx := by
  cases hr : k.ch.lsr.getLsbD 0 with
  | true => exact congrArg Receiver.rx (tickCall_receiver_of_unread h1 hd ha hf hr)
  | false => exact congrArg Receiver.rx (tickCall_receiver_of_read h1 hd ha hf hr)

end Outcome

/-- Settles O30: the receiver after the tick is the one the receiver's step leaves, and its cases are the answers and
the disciplines. -/
theorem tickReceivesAtMostOneByte : Obligations.TickReceivesAtMostOneByte := by
  unfold Obligations.TickReceivesAtMostOneByte
  intro s h1 hok
  have h1 : (⟨s.chan, s.events, none⟩ : Call).ch.baudCnt = 1 := h1
  rw [s.chan.rxContents_length]
  refine ⟨s.onChannel tickCall, rfl, (tickCall_arbitrates (.refl 0 s.chan)).identification,
    fun hd => ⟨(tickCall_rxIn h1).trans (if_pos hd), ?_⟩, fun hd => ?_, tickCall_of_silent h1,
    fun b hd ha => ⟨tickCall_rx_of_unbuffered h1 hd ha, fun hf hr => ?_, fun hf hr => ?_,
      tickCall_rbr_of_fifo h1 hd ha, tickCall_of_room h1 hok hd ha, tickCall_of_full h1 hd ha⟩⟩
  · exact (tickCall_polled h1).trans ((congrArg _ (if_pos hd)).trans (List.append_nil _))
  · have hd := Bool.eq_false_iff.mp hd
    exact ⟨(tickCall_rxIn h1).trans (if_neg hd), (tickCall_polled h1).trans (congrArg _ (if_neg hd))⟩
  · obtain ⟨hrbr, -, hlow, hrda, hrls, -⟩ := Receiver.mk.inj (tickCall_receiver_of_read h1 hd ha hf hr)
    exact ⟨hrbr, hrda, hrls, hlow⟩
  · obtain ⟨hrbr, -, hlow, hrda, hrls, -⟩ := Receiver.mk.inj (tickCall_receiver_of_unread h1 hd ha hf hr)
    exact ⟨hrbr, hrls, hrda, hlow⟩

end Sys2Proof.Machine
end

section
/-! The overrun of the receive FIFO (R902, R910, R912, R917): ticks one after another, the service step at the end of
each countdown, which takes one byte, and the reads that empty the FIFO. -/

namespace Sys2Proof.Machine

/-- `n` ticks of the stand-alone channel. -/
def State.ticks (n : Nat) (s : State) : State := (State.onChannel · tickCall)^[n] s

theorem State.ticks_succ (n : Nat) (s : State) : s.ticks (n + 1) = (s.onChannel tickCall).ticks n :=
  Function.iterate_succ_apply ..

theorem State.ticks_add (m n : Nat) (s : State) : s.ticks (m + n) = (s.ticks m).ticks n := by
  rw [Nat.add_comm]
  exact Function.iterate_add_apply ..

theorem runOps_replicate_tick (n : Nat) (s : State) : runOps (List.replicate n .tick) s = .next (s.ticks n) := by
  induction n generalizing s with
  | zero => rfl
  | succ n ih => exact (ih (s.onChannel tickCall)).trans (by rw [State.ticks_succ])

/-- The invariant, with the FIFO discipline on and the receiver enabled. -/
structure Channel.Listens (c : Channel) : Prop where
  inv : c.Inv
  fifoOn : c.fifoOn = true
  enabled : c.rxDisabled = false

/-- A tick leaves the settings the receiver runs by: the discipline, the disable, the depth and the baud constant. -/
theorem tickCall_settings (k : Call) : (tickCall k).ch.fifoOn = k.ch.fifoOn ∧
    (tickCall k).ch.rxDisabled = k.ch.rxDisabled ∧ (tickCall k).ch.depth = k.ch.depth ∧
    (tickCall k).ch.baudConst = k.ch.baudConst := by
  have hcfg := (tickCall_keepsLine (.refl k)).cfg
  obtain ⟨-, -, -, hfcr, -, hmcr, -, -, hdll, hdlm, -, -, -, hicr⟩ := Registers.mk.inj (tickCall_registers k)
  refine ⟨?_, ?_, ?_, ?_⟩
  · rw [Channel.fifoOn, hcfg, hfcr]
    rfl
  · rw [Channel.rxDisabled, Channel.acr, hcfg, hicr]
    rfl
  · rw [Channel.depth, hcfg]
    rfl
  · rw [Channel.baudConst, Channel.prescaleOn, Channel.divisorEff, Channel.divisor, Channel.cpr, hcfg, hmcr, hdll, hdlm,
      hicr]
    rfl

/-- A service step loads the countdown (R1005). -/
theorem tickCall_reloads {k : Call} (h1 : k.ch.baudCnt = 1) :
    (tickCall k).ch.baudCnt = (tickCall k).ch.baudConst := by
  rw [tickCall_of_service h1]
  rfl

theorem Channel.Listens.tick {k : Call} (h : k.ch.Listens) : (tickCall k).ch.Listens := by
  obtain ⟨hfifo, hdis, -, -⟩ := tickCall_settings k
  exact ⟨channelCall_inv .tick k rfl h.inv, hfifo.trans h.fifoOn, hdis.trans h.enabled⟩

/-- An overrun is on record: OE and the RLS source. -/
def Channel.Overrun (c : Channel) : Prop := c.lsr.getLsbD 1 = true ∧ c.pending.getLsbD 2 = true

/-- Both are the receiver's. -/
theorem Channel.overrun_iff {c : Channel} :
    c.Overrun ↔ c.receiver.low.getLsbD 1 = true ∧ c.receiver.rls = true := by
  simp [Overrun, receiver]

/-- What the channel is after bytes the callback answered, one a service step, with no read between: the first Depth
bytes are in the FIFO, and one byte more has set the overrun (R910, R917). -/
structure Channel.Takes (bytes : List Byte) (c c' : Channel) : Prop where
  listens : c'.Listens
  depth : c'.depth = c.depth
  baudConst : c'.baudConst = c.baudConst
  baudCnt : c'.baudCnt = c.baudConst
  rxIn : c'.rxIn = c.rxIn.drop bytes.length
  contents : c'.rxContents = (c.rxContents ++ bytes).take c.depth
  overrun : c.Overrun ∨ c.depth < c.rxContents.length + bytes.length → c'.Overrun

/-- Cutting the front at the depth already does not change what is kept. -/
theorem take_append_take_self {α : Type} (n : Nat) (l l' : List α) : (l.take n ++ l').take n = (l ++ l').take n := by
  rw [List.take_append, List.take_append, List.take_take, Nat.min_self, List.length_take]
  congr 2
  omega

theorem Channel.Takes.trans {bytes bytes' : List Byte} {c c' c'' : Channel} (h : c.Takes bytes c')
    (h' : c'.Takes bytes' c'') : c.Takes (bytes ++ bytes') c'' where
  listens := h'.listens
  depth := h'.depth.trans h.depth
  baudConst := h'.baudConst.trans h.baudConst
  baudCnt := h'.baudCnt.trans h.baudConst
  rxIn := by rw [h'.rxIn, h.rxIn, List.drop_drop, List.length_append]
  contents := by rw [h'.contents, h.contents, h.depth, take_append_take_self, List.append_assoc]
  overrun ho := by
    have hlen := congrArg List.length h.contents
    have hover := h.overrun
    have hover' := h'.overrun
    simp only [List.length_take, List.length_append] at hlen ho
    rw [h.depth] at hover'
    by_cases hfull : c.Overrun ∨ c.depth < c.rxContents.length + bytes.length
    · exact hover' (.inl (hover hfull))
    · obtain ⟨hno, hroom⟩ := not_or.mp hfull
      have hlate := ho.resolve_left hno
      exact hover' (.inr (by omega))

section Tick
variable {k : Call} {b : Byte} (h : k.ch.Listens) (ha : k.ch.nextAnswer = some b)
include h ha

/-- A byte that finds room is appended, and an overrun on record stays (R910). -/
theorem tickCall_takes_of_room (h1 : k.ch.baudCnt = 1) (hc : k.ch.rx.count < k.ch.depth) :
    (tickCall k).ch.rxContents = (k.ch.rxContents ++ [b]).take k.ch.depth ∧
    (k.ch.Overrun → (tickCall k).ch.Overrun) := by
  obtain ⟨hcontents, -⟩ := tickCall_of_room h1 h.inv.fifos.rx h.enabled ha h.fifoOn hc
  have hrcv := tickCall_receiver_of_room h1 h.enabled ha h.fifoOn (Nat.ne_of_lt hc)
  refine ⟨?_, fun ho => ?_⟩
  · rw [hcontents, List.take_of_length_le (by rw [List.length_append, Channel.rxContents_length]; exact hc)]
  · rw [Channel.overrun_iff] at ho ⊢
    rw [hrcv]
    exact ⟨getLsbD_raised _ ho.1, ho.2⟩

/-- A byte that finds none is lost, with an overrun (R910). -/
theorem tickCall_takes_of_full (h1 : k.ch.baudCnt = 1) (hc : k.ch.rx.count = k.ch.depth) :
    (tickCall k).ch.rxContents = (k.ch.rxContents ++ [b]).take k.ch.depth ∧ (tickCall k).ch.Overrun := by
  obtain ⟨hrx, -⟩ := tickCall_of_full h1 h.enabled ha h.fifoOn hc
  have hrcv := tickCall_receiver_of_full h1 h.enabled ha h.fifoOn hc
  refine ⟨?_, ?_⟩
  · rw [tickCall_rxContents, hrx, List.take_left' (k.ch.rxContents_length.trans hc)]
    rfl
  · rw [Channel.overrun_iff, hrcv, BitVec.getLsbD_or]
    exact ⟨Bool.or_true _, rfl⟩

theorem tickCall_takes (h1 : k.ch.baudCnt = 1) : k.ch.Takes [b] (tickCall k).ch := by
  obtain ⟨-, -, hdepth, hbaud⟩ := tickCall_settings k
  have hcnt := (tickCall_reloads h1).trans hbaud
  have hrxIn : (tickCall k).ch.rxIn = k.ch.rxIn.drop 1 := by
    rw [tickCall_rxIn h1, if_neg (Bool.eq_false_iff.mp h.enabled), List.drop_one]
  by_cases hc : k.ch.rx.count = k.ch.depth
  · obtain ⟨hcontents, hover⟩ := tickCall_takes_of_full h ha h1 hc
    exact ⟨h.tick, hdepth, hbaud, hcnt, hrxIn, hcontents, fun _ => hover⟩
  · have hc : k.ch.rx.count < k.ch.depth := Nat.lt_of_le_of_ne h.inv.fifos.rx.count hc
    obtain ⟨hcontents, hover⟩ := tickCall_takes_of_room h ha h1 hc
    refine ⟨h.tick, hdepth, hbaud, hcnt, hrxIn, hcontents, fun ho => hover (ho.resolve_right ?_)⟩
    rw [k.ch.rxContents_length, List.length_singleton]
    omega

end Tick

/-- A waiting tick comes before the service step without touching the receiver (R1005). -/
theorem takes_of_wait {k : Call} {bytes : List Byte} {c : Channel} (h1 : 1 < k.ch.baudCnt)
    (h : (tickCall k).ch.Takes bytes c) : k.ch.Takes bytes c := by
  have hdown := countDown_countsDown k
  obtain ⟨-, -, hdepth, hbaud⟩ := tickCall_settings k
  obtain ⟨hlsr, hrx, hrxIn, -⟩ := hdown.offer
  rw [← tickCall_of_wait h1] at hlsr hrx hrxIn hdown
  have hcontents : (tickCall k).ch.rxContents = k.ch.rxContents := by
    rw [tickCall_rxContents, hrx]
    rfl
  have hover : (tickCall k).ch.Overrun ↔ k.ch.Overrun := by rw [Channel.Overrun, hlsr, hdown.rls, Channel.Overrun]
  obtain ⟨l, hd, hb, hc, hin, hcon, hov⟩ := h
  rw [hdepth, hcontents, hover] at hov
  exact ⟨l, hd.trans hdepth, hb.trans hbaud, hc.trans hbaud, hrxIn ▸ hin, hdepth ▸ hcontents ▸ hcon, hov⟩

/-- The ticks of a running countdown take one byte (R1005, R1006). -/
theorem State.ticks_takes_byte {b : Byte} (s : State) (h : s.chan.Listens) (ha : s.chan.nextAnswer = some b) :
    s.chan.Takes [b] (s.ticks s.chan.baudCnt).chan := by
  induction hn : s.chan.baudCnt generalizing s with
  | zero => exact absurd h.inv.timers.baudLow (by rw [hn]; decide)
  | succ n ih =>
    rw [ticks_succ]
    obtain rfl | hpos := Nat.eq_zero_or_pos n
    · exact tickCall_takes (k := ⟨s.chan, s.events, none⟩) h ha hn
    · have h1 : 1 < (⟨s.chan, s.events, none⟩ : Call).ch.baudCnt := by rw [hn]; omega
      obtain ⟨-, -, -, hans, -⟩ := (countDown_countsDown ⟨s.chan, s.events, none⟩).offer
      have hcnt := countDown_baudCnt ⟨s.chan, s.events, none⟩
      rw [← tickCall_of_wait h1] at hans hcnt
      exact takes_of_wait h1 (ih (s.onChannel tickCall) h.tick (hans.trans ha) (hcnt.trans (congrArg (· - 1) hn)))

/-- The ticks of a running countdown, and of one service step more for each further byte, take all the bytes. -/
theorem State.ticks_takes {b : Byte} {rest : List Byte} {later : List (Option Byte)} (s : State)
    (h : s.chan.Listens) (hin : s.chan.rxIn = (b :: rest).map some ++ later) :
    s.chan.Takes (b :: rest) (s.ticks (s.chan.baudCnt + rest.length * s.chan.baudConst)).chan := by
  induction rest generalizing b s with
  | nil =>
    rw [List.length_nil, Nat.zero_mul]
    exact s.ticks_takes_byte h (congrArg (List.headD · none) hin)
  | cons b' rest ih =>
    have hfirst := s.ticks_takes_byte (b := b) h (congrArg (List.headD · none) hin)
    have hin' : (s.ticks s.chan.baudCnt).chan.rxIn = (b' :: rest).map some ++ later := by
      rw [hfirst.rxIn, hin]
      rfl
    have hnext := ih _ hfirst.listens hin'
    have hlen : s.chan.baudCnt + (b' :: rest).length * s.chan.baudConst =
        s.chan.baudCnt + (s.chan.baudConst + rest.length * s.chan.baudConst) := by
      rw [List.length_cons, Nat.succ_mul, Nat.add_comm s.chan.baudConst]
    rw [hfirst.baudCnt, hfirst.baudConst] at hnext
    rw [hlen, ticks_add]
    exact hfirst.trans hnext

/-- As many FIFO reads as there are bytes return them in order (R912). -/
theorem returned_pops (bytes : List Byte) (s : State) (hok : s.chan.rx.Ok s.chan.depth)
    (h : s.chan.rxContents = bytes) : returned (List.replicate bytes.length .rdRbrFifo) s = bytes := by
  induction bytes generalizing s with
  | nil => rfl
  | cons b rest ih =>
    obtain ⟨hvalue, hleft⟩ := popRx_of_cons hok h
    have hrest := ih (s.onChannel rdRbrFifoCall) (rxPop_rxFifoOk (k := ⟨s.chan, s.events, none⟩) hok)
      ((rxPop_rxContents _).trans hleft)
    change s.chan.popValue :: returned (List.replicate rest.length .rdRbrFifo) (s.onChannel rdRbrFifoCall) = _
    rw [hvalue, hrest]

/-- Settles O57: the service steps take the bytes, of which the last finds the FIFO full, and the reads return what is
left. -/
theorem fifoOverrunLaw : Obligations.FifoOverrunLaw := by
  unfold Obligations.FifoOverrunLaw
  intro s bytes later hinv hf hd hlen hin
  obtain ⟨b, rest, rfl⟩ := List.exists_cons_of_length_eq_add_one hlen
  have hrest : rest.length = s.chan.depth := by simpa using hlen
  have h := s.ticks_takes ⟨hinv, hf, hd⟩ hin
  rw [hrest] at h
  generalize hn : s.chan.baudCnt + s.chan.depth * s.chan.baudConst = n at h
  have hcount : (s.ticks n).chan.rxContents.length = s.chan.depth := by
    rw [h.contents, List.length_take, List.length_append, hlen]
    omega
  obtain ⟨hoe, hrls⟩ := h.overrun (.inr (by omega))
  refine ⟨s.ticks n, runOps_replicate_tick n s, ?_, hoe, hrls, ?_⟩
  · rw [← hcount, Channel.rxContents_length]
  · rw [← h.contents, ← hcount]
    exact returned_pops _ _ h.listens.inv.fifos.rx rfl

end Sys2Proof.Machine
end

section
/-! The ranges of the derived quantities (R1000 to R1004, R1008, R131): the rules' own arithmetic for the frame and the
prescale factor, on the byte as a number. -/

namespace Sys2Proof.Machine

/-- The word-length field as the rule's masked byte (R1000). -/
theorem wordLength_toNat (l : Byte) : (l.extractLsb' 0 2).toNat = (l &&& 0x03).toNat := by
  rw [BitVec.extractLsb'_toNat, BitVec.toNat_and, Nat.shiftRight_zero]
  exact (Nat.and_two_pow_sub_one_eq_mod l.toNat 2).symm

theorem frameBits_eq (l : Byte) : frameBits l =
    1 + (5 + (l &&& 0x03).toNat) + (if l.getLsbD 3 then 1 else 0) + (if l.getLsbD 2 then 2 else 1) := by
  rw [frameBits, wordLength_toNat]
  cases l.getLsbD 3 <;> cases l.getLsbD 2 <;> rfl

/-- CPR's integer part M = CPR[7:3] is 0 exactly below 8 (R1003). -/
theorem prescaleEighths_eq (cpr : Byte) :
    prescaleEighths cpr = if cpr.toNat < 8 then 8 + cpr.toNat else cpr.toNat := by
  have hlt := cpr.isLt
  have hint : (cpr.extractLsb' 3 5).toNat = cpr.toNat / 8 := by
    rw [BitVec.extractLsb'_toNat, Nat.shiftRight_eq_div_pow]
    omega
  have hfrac : (cpr.extractLsb' 0 3).toNat = cpr.toNat % 8 := BitVec.extractLsb'_toNat ..
  rw [prescaleEighths, hint, hfrac]
  split <;> split <;> omega

/-- Settles O53, one lemma a quantity. -/
theorem derivedQuantitiesStayInRange : Obligations.DerivedQuantitiesStayInRange := by
  unfold Obligations.DerivedQuantitiesStayInRange
  exact ⟨fun l => ⟨frameBits_eq l, frameBits_range l⟩,
    fun cpr => ⟨(prescaleEighths_range cpr).1, prescaleEighths_eq cpr⟩,
    fun c => ⟨c.baudConst_range.1, c.baudConst_range.2, c.timeoutTicks_range.2⟩⟩

end Sys2Proof.Machine
end

section
/-! A tick as a whole (R1005, R1006, R1009, R1010): the countdowns, and what a service step does after them. A service
step touches the pipeline only (`Channel.OnlyTicks`), raises sources but never MS or the marker
(`Channel.RaisesDataSources`), and leaves the timeout unless a byte goes into the FIFO. -/

namespace Sys2Proof.Machine

/-- A tick that does not wait runs the service step, a countdown outside its range included (R1005). -/
theorem tickCall_of_not_wait {k : Call} (h : ¬1 < k.ch.baudCnt) :
    tickCall k = (transmitStep (receivePhase k)).modify Channel.reloaded := by
  have h0 : (countDown k).ch.baudCnt = 0 := by rw [countDown_baudCnt]; omega
  rw [receivePhase, ← serviceStep_eq]
  exact if_pos h0

/-- After the receiver's step a tick leaves the receiver (R1005, R1007). -/
theorem tickCall_receiver_of_not_wait {k : Call} (h : ¬1 < k.ch.baudCnt) :
    (tickCall k).ch.receiver = (receiveStep (countDown k)).ch.receiver := by
  rw [tickCall_of_not_wait h]
  exact transmitStep_receiver _

/-- Between two channels only what a tick can touch differs: the pipeline with its registers and flags, the sources, the
timers and the answers. -/
def Channel.OnlyTicks (c c' : Channel) : Prop :=
  c' = { c with
    rbr := c'.rbr, thrPending := c'.thrPending, iirId := c'.iirId, lsr := c'.lsr, pending := c'.pending, rx := c'.rx,
    tx := c'.tx, tsrBusy := c'.tsrBusy, tsrByte := c'.tsrByte, txBits := c'.txBits, baudCnt := c'.baudCnt,
    toArmed := c'.toArmed, toCnt := c'.toCnt, intLine := c'.intLine, rxIn := c'.rxIn }

section Frame
variable {c c' c'' : Channel}

theorem Channel.OnlyTicks.trans (h : c.OnlyTicks c') (h' : c'.OnlyTicks c'') : c.OnlyTicks c'' := by
  unfold OnlyTicks at h h' ⊢
  rw [h', h]

theorem Channel.ReceivesOnly.onlyTicks (h : c.ReceivesOnly c') : c.OnlyTicks c' := by
  unfold OnlyTicks
  rw [h.frame]

theorem Channel.OnlyTransmitter.onlyTicks (h : c.OnlyTransmitter c') : c.OnlyTicks c' := by
  unfold OnlyTransmitter at h
  unfold OnlyTicks
  rw [h]

/-- The configuration and the transmitter's disable bit are as they were. -/
theorem Channel.OnlyTicks.settings (h : c.OnlyTicks c') : c'.cfg = c.cfg ∧ c'.txDisabled = c.txDisabled := by
  unfold OnlyTicks at h
  rw [h]
  exact ⟨rfl, rfl⟩

theorem transmitStep_onlyTicks (k : Call) : k.ch.OnlyTicks (transmitStep k).ch := by
  have hbit : k.ch.OnlyTicks { k.ch with txBits := k.ch.txBits - 1 } := rfl
  unfold transmitStep txServiceStep
  dsimp only
  split
  · rfl
  · split
    · split
      · exact hbit.trans (txComplete_onlyTransmitter _).onlyTicks
      · exact hbit
    · rfl

theorem tickCall_onlyTicks (k : Call) : k.ch.OnlyTicks (tickCall k).ch := by
  by_cases hw : 1 < k.ch.baudCnt
  · rw [tickCall_of_wait hw]
    exact (countDown_countsDown k).receivesOnly.onlyTicks
  · rw [tickCall_of_not_wait hw]
    exact ((receivePhase_receivesOnly k).onlyTicks.trans (transmitStep_onlyTicks _)).trans rfl

end Frame

/-- Between two channels sources are raised at most, and neither MS nor the marker (R801, R1005). -/
def Channel.RaisesDataSources (c c' : Channel) : Prop :=
  ∃ src : BitVec 5, src.getLsbD 3 = false ∧ src.getLsbD 4 = false ∧ c'.pending = c.pending ||| src

section Sources
variable {c c' : Channel} {k : Call}

theorem Channel.RaisesDataSources.refl (c : Channel) : c.RaisesDataSources c := ⟨0, rfl, rfl, BitVec.or_zero.symm⟩

theorem Channel.RaisesDataSources.keeps {b : Nat} (h : c.RaisesDataSources c') (hb : c.pending.getLsbD b = true) :
    c'.pending.getLsbD b = true := by
  obtain ⟨src, -, -, hp⟩ := h
  exact hp ▸ getLsbD_raised src hb

theorem Channel.RaisesDataSources.ms_marker (h : c.RaisesDataSources c') :
    c'.pending.getLsbD 3 = c.pending.getLsbD 3 ∧ c'.pending.getLsbD 4 = c.pending.getLsbD 4 := by
  obtain ⟨src, h3, h4, hp⟩ := h
  exact hp ▸ ⟨getLsbD_not_raised _ h3, getLsbD_not_raised _ h4⟩

theorem Channel.RaisesDataSources.thenTrigger {src : BitVec 5} (h : c.RaisesDataSources k.ch)
    (h3 : src.getLsbD 3 = false) (h4 : src.getLsbD 4 = false) : c.RaisesDataSources (trigger src k).ch := by
  obtain ⟨old, ho3, ho4, hp⟩ := h
  refine ⟨old ||| src, (getLsbD_not_raised old h3).trans ho3, (getLsbD_not_raised old h4).trans ho4, ?_⟩
  rw [trigger_ch, Channel.identified_pending, hp, BitVec.or_assoc]

theorem rxAcceptUnbuf_raises (b : Byte) (h : c.RaisesDataSources k.ch) :
    c.RaisesDataSources (rxAcceptUnbuf b k).ch := by
  unfold rxAcceptUnbuf
  split <;> exact .thenTrigger (k := k.modify _) h rfl rfl

theorem rxAcceptFifo_raises (b : Byte) (h : c.RaisesDataSources k.ch) :
    c.RaisesDataSources (rxAcceptFifo b k).ch := by
  unfold rxAcceptFifo
  dsimp only
  split
  · exact .thenTrigger (k := k.modify _) h rfl rfl
  · split
    · exact .thenTrigger (k := k.modify _) h rfl rfl
    · exact h

theorem receiveStep_raises (h : c.RaisesDataSources k.ch) : c.RaisesDataSources (receiveStep k).ch := by
  have hcall : c.RaisesDataSources (callRx k).ch := h
  unfold receiveStep rxServiceStep rxAccept
  split
  · exact h
  · split
    · exact hcall
    · split
      · exact rxAcceptFifo_raises _ hcall
      · exact rxAcceptUnbuf_raises _ hcall

theorem updateTxFlags_raises (h : c.RaisesDataSources k.ch) : c.RaisesDataSources (updateTxFlags k).ch := by
  unfold updateTxFlags
  dsimp only
  split
  · exact .thenTrigger (k := k.modify _) h rfl rfl
  · exact h

theorem txComplete_raises (h : c.RaisesDataSources k.ch) : c.RaisesDataSources (txComplete k).ch := by
  have hload := congrArg Arbiter.pending (loadNext_onlyQueues k.ch.idled).arbiter_eq
  obtain ⟨src, h3, h4, hp⟩ := h
  rw [txComplete_ch]
  exact updateTxFlags_raises ⟨src, h3, h4, hload.trans hp⟩

theorem transmitStep_raises (h : c.RaisesDataSources k.ch) : c.RaisesDataSources (transmitStep k).ch := by
  unfold transmitStep txServiceStep
  dsimp only
  split
  · exact h
  · split
    · split
      · exact txComplete_raises (k := k.modify _) h
      · exact h
    · exact h

/-- After its countdowns a tick raises no more than the sources of the data (R1005). -/
theorem tickCall_raises (k : Call) : (countDown k).ch.RaisesDataSources (tickCall k).ch := by
  have hdown := Channel.RaisesDataSources.refl (countDown k).ch
  by_cases hw : 1 < k.ch.baudCnt
  · rwa [tickCall_of_wait hw]
  · rw [tickCall_of_not_wait hw]
    exact transmitStep_raises (receiveStep_raises hdown)

end Sources

section Timeout
variable {k : Call}

/-- A service step that puts no byte into the FIFO leaves the timeout (R909, R910). -/
theorem receiveStep_timeout (h : k.ch.rxDisabled = true ∨ k.ch.nextAnswer = none ∨ k.ch.fifoOn = false ∨
    k.ch.rx.count = k.ch.depth) :
    (receiveStep k).ch.toArmed = k.ch.toArmed ∧ (receiveStep k).ch.toCnt = k.ch.toCnt := by
  cases hd : k.ch.rxDisabled with
  | true => rw [receiveStep_of_disabled hd]; exact ⟨rfl, rfl⟩
  | false =>
    cases ha : k.ch.nextAnswer with
    | none => rw [receiveStep_of_none hd ha]; exact ⟨rfl, rfl⟩
    | some b =>
      rw [receiveStep_of_byte hd ha]
      split
      · next hf =>
        have hfull : k.ch.rx.count = k.ch.depth := by simpa [hd, ha, show k.ch.fifoOn = true from hf] using h
        have hrcv := rxAcceptFifo_receiver_of_full (k := callRx k) (b := b) hfull
        exact ⟨congrArg Receiver.toArmed hrcv, congrArg Receiver.toCnt hrcv⟩
      · unfold rxAcceptUnbuf
        split <;> exact ⟨rfl, rfl⟩

/-- A tick that puts no byte into the FIFO only counts the timeout: what decides on the byte is the same after the
countdowns (R1009, R1010). -/
theorem tickCall_timeoutCounts (h : 1 < k.ch.baudCnt ∨ k.ch.rxDisabled = true ∨ k.ch.nextAnswer = none ∨
    k.ch.fifoOn = false ∨ k.ch.rx.count = k.ch.depth) : k.ch.TimeoutCounts (tickCall k).ch := by
  have hdown := countDown_countsDown k
  by_cases hw : 1 < k.ch.baudCnt
  · rw [tickCall_of_wait hw]
    exact hdown.timeout
  · obtain ⟨-, hdepth, hfifo, -, -, -, hdis, -⟩ := hdown.receivesOnly.settings
    obtain ⟨-, hrx, -, hans, -⟩ := hdown.offer
    have hno := h.resolve_left hw
    rw [← hdis, ← hans, ← hfifo, ← hrx, ← hdepth] at hno
    have hrcv := tickCall_receiver_of_not_wait hw
    obtain ⟨harmed, hcnt⟩ := receiveStep_timeout hno
    have harmed' : (tickCall k).ch.toArmed = _ := (congrArg Receiver.toArmed hrcv).trans harmed
    have hcnt' : (tickCall k).ch.toCnt = _ := (congrArg Receiver.toCnt hrcv).trans hcnt
    obtain ⟨hcounts, hfires, hidle⟩ := hdown.timeout
    rw [← harmed', ← hcnt'] at hcounts hfires hidle
    exact ⟨hcounts, hfires, hidle⟩

/-- A tick that receives no byte raises RDA by the timeout only (R911, R1010). -/
theorem tickCall_rda_of_silent (h : 1 < k.ch.baudCnt ∨ k.ch.rxDisabled = true ∨ k.ch.nextAnswer = none) :
    (tickCall k).ch.pending.getLsbD 0 = (countDown k).ch.pending.getLsbD 0 := by
  by_cases hw : 1 < k.ch.baudCnt
  · rw [tickCall_of_wait hw]
  · obtain ⟨-, -, -, -, -, -, hdis, -⟩ := (countDown_countsDown k).receivesOnly.settings
    obtain ⟨-, -, -, hans, -⟩ := (countDown_countsDown k).offer
    have hno := h.resolve_left hw
    rw [← hdis, ← hans] at hno
    have hrcv : (receiveStep (countDown k)).ch.pending = (countDown k).ch.pending := by
      cases hd : (countDown k).ch.rxDisabled with
      | true => rw [receiveStep_of_disabled hd]
      | false => rw [receiveStep_of_none hd (hno.resolve_left (Bool.eq_false_iff.mp hd))]
    rw [← hrcv]
    exact congrArg Receiver.rda (tickCall_receiver_of_not_wait hw)

/-- The last tick of an armed timeout of the FIFO discipline raises both bits of CTI (R1010). -/
theorem countDown_raises_cti (ha : k.ch.toArmed = true) (hf : k.ch.fifoOn = true) (hc : k.ch.toCnt = 1) :
    (countDown k).ch.pending = k.ch.pending ||| srcCti := by
  have hlast : k.ch.toCnt - 1 = 0 := by omega
  rw [countDown, Call.modify_ch, timeoutStep_ch, ha, hf, Bool.and_self, if_pos rfl, if_pos hlast]
  rfl

end Timeout

/-- Settles O32: the countdowns run the timeout, and a service step that puts no byte into the FIFO leaves it. -/
theorem tickRunsTheCharacterTimeout : Obligations.TickRunsTheCharacterTimeout := by
  unfold Obligations.TickRunsTheCharacterTimeout
  intro s
  have hdown := countDown_countsDown ⟨s.chan, s.events, none⟩
  have hraises := tickCall_raises ⟨s.chan, s.events, none⟩
  refine ⟨s.onChannel tickCall, rfl, fun ha hf hc => ?_, fun he => ?_,
    tickCall_timeoutCounts (k := ⟨s.chan, s.events, none⟩), fun h he => ?_⟩
  · have hcti := countDown_raises_cti (k := ⟨s.chan, s.events, none⟩) ha hf hc
    exact ⟨hraises.keeps (hcti ▸ getLsbD_raised_self _ rfl), hraises.keeps (hcti ▸ getLsbD_raised_self _ rfl)⟩
  · exact hraises.ms_marker.2.trans (congrArg (BitVec.getLsbD · 4) (hdown.unexpired he))
  · exact (tickCall_rda_of_silent h).trans (congrArg (BitVec.getLsbD · 0) (hdown.unexpired he))

/-- Where the timeout does not fire, a tick's countdowns leave the identification and the line (R1010). -/
theorem countDown_identification {k : Call} (he : k.ch.NoExpiry) :
    (countDown k).ch.iirId = k.ch.iirId ∧ (countDown k).ch.intLine = k.ch.intLine := by
  rw [countDown, Call.modify_ch, timeoutStep_ch_of_noExpiry k he]
  exact ⟨rfl, rfl⟩

/-- What the countdowns leave, with the baud countdown one less (R1005). -/
theorem countDown_frame (k : Call) : (countDown k).ch = { k.ch with
    iirId := (countDown k).ch.iirId, pending := (countDown k).ch.pending, toArmed := (countDown k).ch.toArmed,
    toCnt := (countDown k).ch.toCnt, intLine := (countDown k).ch.intLine, baudCnt := k.ch.baudCnt - 1 } := by
  rw [← countDown_baudCnt]
  exact (countDown_countsDown k).frame

/-- Settles O29: a tick above 1 is its countdowns, and at 1 the service step reloads. -/
theorem tickCountsAndKeepsTheRegisters : Obligations.TickCountsAndKeepsTheRegisters := by
  unfold Obligations.TickCountsAndKeepsTheRegisters
  intro s _
  have hdown := countDown_countsDown ⟨s.chan, s.events, none⟩
  have hms := (tickCall_raises ⟨s.chan, s.events, none⟩).ms_marker.1.trans (timeoutStep_pending_getLsbD _ rfl)
  refine ⟨s.onChannel tickCall, rfl, rfl, rfl, rfl, tickCall_result _, tickCall_onlyTicks _, hms,
    (tickCall_arbitrates (.refl 0 s.chan)).identification, fun h1 => ?_, fun hw => ?_⟩
  · obtain ⟨-, -, -, hbaud⟩ := tickCall_settings ⟨s.chan, s.events, none⟩
    exact (tickCall_reloads (k := ⟨s.chan, s.events, none⟩) h1).trans hbaud
  · rw [State.onChannel_events, State.onChannel_chan, tickCall_of_wait (k := ⟨s.chan, s.events, none⟩) hw]
    exact ⟨countDown_dataCalls _, countDown_frame _, hdown.thre, hdown.rls,
      fun he => ⟨hdown.unexpired he, countDown_identification he⟩⟩

end Sys2Proof.Machine
end

section
/-! Two countdowns run to their end (R1006, R1009, R1010): the bits of the byte in the TSR and the character timeout.
Each is a count that every tick but the last takes one from (`State.ticks_count`). -/

namespace Sys2Proof.Machine

/-- A count that a tick takes one from while more than one is left is run down by as many ticks. -/
theorem State.ticks_count {P : State → Prop} {left : State → Nat}
    (tick : ∀ s, P s → 1 < left s → P (s.onChannel tickCall) ∧ left (s.onChannel tickCall) + 1 = left s)
    (n : Nat) (s : State) (h : P s) (hn : n < left s) : P (s.ticks n) ∧ left (s.ticks n) + n = left s := by
  induction n generalizing s with
  | zero => exact ⟨h, rfl⟩
  | succ n ih =>
    obtain ⟨hp, hl⟩ := tick s h (by omega)
    obtain ⟨hp', hl'⟩ := ih (s.onChannel tickCall) hp (by omega)
    rw [ticks_succ]
    exact ⟨hp', by omega⟩

/-- The tick that ends such a count starts from a state in which one is left. -/
theorem State.ticks_count_end {P : State → Prop} {left : State → Nat}
    (tick : ∀ s, P s → 1 < left s → P (s.onChannel tickCall) ∧ left (s.onChannel tickCall) + 1 = left s)
    (s : State) (h : P s) (hpos : 0 < left s) :
    ∃ u, P u ∧ left u = 1 ∧ s.ticks (left s) = u.onChannel tickCall := by
  obtain ⟨n, hn⟩ := Nat.exists_eq_add_one_of_ne_zero (Nat.ne_of_gt hpos)
  obtain ⟨hp, hl⟩ := ticks_count tick n s h (by omega)
  exact ⟨s.ticks n, hp, by omega, hn ▸ ticks_add n 1 s⟩

section Byte

/-- The base ticks until the byte in the TSR is out: the running countdown, and the baud constant for each further bit
(R1006, R908). -/
def Channel.sendTime (c : Channel) : Nat := c.baudCnt + (c.txBits - 1) * c.baudConst

theorem Channel.sendTime_of_wait {c c' : Channel} (hw : 1 < c.baudCnt) (hcnt : c'.baudCnt = c.baudCnt - 1)
    (hbits : c'.txBits = c.txBits) (hbaud : c'.baudConst = c.baudConst) : c'.sendTime + 1 = c.sendTime := by
  rw [sendTime, sendTime, hcnt, hbits, hbaud]
  omega

theorem Channel.sendTime_of_bit {c c' : Channel} (h1 : c.baudCnt = 1) (hmore : 1 < c.txBits)
    (hcnt : c'.baudCnt = c.baudConst) (hbits : c'.txBits = c.txBits - 1) (hbaud : c'.baudConst = c.baudConst) :
    c'.sendTime + 1 = c.sendTime := by
  have hmul := Nat.succ_mul (c.txBits - 1 - 1) c.baudConst
  rw [Nat.succ_eq_add_one, Nat.sub_add_cancel (by omega)] at hmul
  rw [sendTime, sendTime, h1, hcnt, hbits, hbaud, hmul]
  omega

/-- A countdown at 1 leaves one tick exactly for the last bit: the baud constant is never 0 (R1004). -/
theorem Channel.sendTime_eq_one_iff {c : Channel} (h1 : c.baudCnt = 1) (hpos : 0 < c.txBits) :
    c.sendTime = 1 ↔ c.txBits = 1 := by
  have hzero : (c.txBits - 1) * c.baudConst = 0 ↔ c.txBits - 1 = 0 :=
    mul_eq_zero_iff_right (Nat.ne_of_gt c.baudConst_range.1)
  rw [sendTime, h1]
  omega

/-- The byte `b` is in the TSR of the channel called by `h`, and `sent` is what the channel has transmitted. -/
structure State.Sending (h : Handle) (b : Byte) (sent : List Byte) (s : State) : Prop where
  inv : s.chan.Inv
  busy : s.chan.tsrBusy = true
  enabled : s.chan.txDisabled = false
  handle : s.chan.cfg.handle = h
  byte : s.chan.tsrByte = b
  sent : transmitted h s.events = sent

/-- A call of the receive callback transmits nothing. -/
theorem transmitted_receiveCalls (h : Handle) (c : Channel) : transmitted h c.receiveCalls = [] := by
  unfold Channel.receiveCalls
  split <;> rfl

theorem transmitted_transmitByte (h : Handle) (sub : Nat) (b : Byte) :
    transmitted h [.transmitByte h sub b] = [b] := by
  simp [transmitted, Event.sentBy]

namespace State.Sending
variable {h : Handle} {b : Byte} {sent : List Byte} {s : State} (hs : s.Sending h b sent)
include hs

/-- A byte in the TSR has a bit left (R128). -/
theorem bits_pos : 0 < s.chan.txBits :=
  of_decide_eq_true (hs.inv.transmitter.busy.symm.trans hs.busy)

/-- A tick that leaves the byte in the TSR and transmits nothing leaves it to be sent. -/
theorem tick (hbusy : (s.onChannel tickCall).chan.tsrBusy = true)
    (hbyte : (s.onChannel tickCall).chan.tsrByte = s.chan.tsrByte)
    (hsent : transmitted h (s.onChannel tickCall).events = transmitted h s.events) :
    (s.onChannel tickCall).Sending h b sent := by
  obtain ⟨hcfg, hdis⟩ := (tickCall_onlyTicks ⟨s.chan, s.events, none⟩).settings
  exact
    { inv := channelCall_inv .tick ⟨s.chan, s.events, none⟩ rfl hs.inv
      busy := hbusy
      enabled := hdis.trans hs.enabled
      handle := (congrArg ChannelConfig.handle hcfg).trans hs.handle
      byte := hbyte.trans hs.byte
      sent := hsent.trans hs.sent }

/-- A waiting tick takes one from the countdown (R1005). -/
theorem tick_of_wait (hw : 1 < s.chan.baudCnt) : (s.onChannel tickCall).Sending h b sent ∧
    (s.onChannel tickCall).chan.sendTime + 1 = s.chan.sendTime := by
  obtain ⟨t, ht, -, -, -, -, -, -, -, -, hwait⟩ := tickCountsAndKeepsTheRegisters s hs.inv.timers.baudLow
  cases ht
  obtain ⟨hcalls, hframe, -⟩ := hwait hw
  generalize hc : (s.onChannel tickCall).chan = c at hframe
  refine ⟨hs.tick ?_ ?_ ?_, ?_⟩
  · rw [hc, hframe]
    exact hs.busy
  · rw [hc, hframe]
  · rw [← transmitted_dataCalls, hcalls, transmitted_dataCalls]
  · rw [hframe]
    exact Channel.sendTime_of_wait hw rfl rfl rfl

variable (h1 : s.chan.baudCnt = 1)
include h1

/-- A service step with more than one bit left takes one and reloads (R908, R1005). -/
theorem tick_of_bits (hmore : 1 < s.chan.txBits) : (s.onChannel tickCall).Sending h b sent ∧
    (s.onChannel tickCall).chan.sendTime + 1 = s.chan.sendTime := by
  obtain ⟨t, received, ht, rfl, -, hbit, -⟩ := tickTransmitsBitByBit s h1 hs.inv.fifos.tx
  cases ht
  obtain ⟨hcalls, hbusy, hbyte, hbits, -⟩ := hbit hs.enabled hs.busy hmore
  obtain ⟨-, -, -, hbaud⟩ := tickCall_settings ⟨s.chan, s.events, none⟩
  have hcnt := (tickCall_reloads (k := ⟨s.chan, s.events, none⟩) h1).trans hbaud
  refine ⟨hs.tick hbusy hbyte ?_, Channel.sendTime_of_bit h1 hmore hcnt hbits hbaud⟩
  rw [← transmitted_dataCalls, hcalls, transmitted_append, transmitted_dataCalls]
  exact (congrArg _ (transmitted_receiveCalls h s.chan)).trans (List.append_nil _)

/-- The service step of the last bit hands the byte over (R907, R908). -/
theorem tick_of_last_bit (hlast : s.chan.txBits = 1) :
    transmitted h (s.onChannel tickCall).events = sent ++ [b] := by
  obtain ⟨t, received, ht, rfl, -, -, hdone⟩ := tickTransmitsBitByBit s h1 hs.inv.fifos.tx
  cases ht
  obtain ⟨hcalls, -⟩ := hdone hs.enabled hs.busy hlast
  have hnone : transmitted h s.chan.receiveCalls = [] := transmitted_receiveCalls h s.chan
  rw [Channel.receiveCalls] at hnone
  rw [← transmitted_dataCalls, hcalls, transmitted_append, transmitted_append, transmitted_dataCalls, hnone,
    List.append_nil, hs.handle, transmitted_transmitByte, hs.byte, hs.sent]

omit h1

/-- Every tick but the last takes one from the time left (R1006). -/
theorem tick_of_early (hleft : 1 < s.chan.sendTime) : (s.onChannel tickCall).Sending h b sent ∧
    (s.onChannel tickCall).chan.sendTime + 1 = s.chan.sendTime := by
  obtain hw | h1 := Nat.lt_or_eq_of_le hs.inv.timers.baudLow
  · exact hs.tick_of_wait hw
  · have hpos := hs.bits_pos
    have hone := Channel.sendTime_eq_one_iff h1.symm hpos
    exact hs.tick_of_bits h1.symm (by omega)

/-- The last tick is the service step of the last bit. -/
theorem tick_of_end (hleft : s.chan.sendTime = 1) : transmitted h (s.onChannel tickCall).events = sent ++ [b] := by
  have h1 : s.chan.baudCnt = 1 := Nat.le_antisymm (hleft ▸ Nat.le_add_right ..) hs.inv.timers.baudLow
  exact hs.tick_of_last_bit h1 ((Channel.sendTime_eq_one_iff h1 hs.bits_pos).mp hleft)

end State.Sending

/-- Settles O55: every tick but the last takes one from the time left. -/
theorem aByteGoesOutAfterItsLastBit : Obligations.AByteGoesOutAfterItsLastBit := by
  unfold Obligations.AByteGoesOutAfterItsLastBit
  intro s hinv hbusy henabled
  have hs : s.Sending s.chan.cfg.handle s.chan.tsrByte (transmitted s.chan.cfg.handle s.events) :=
    ⟨hinv, hbusy, henabled, rfl, rfl, rfl⟩
  have hpos : 0 < s.chan.sendTime := Nat.add_pos_left hinv.timers.baudLow _
  refine ⟨fun n hn => ⟨s.ticks n, runOps_replicate_tick n s, ?_⟩,
    s.ticks s.chan.sendTime, runOps_replicate_tick _ s, ?_⟩
  · exact (State.ticks_count (fun _ h => h.tick_of_early) n s hs hn).1.sent
  · obtain ⟨u, hu, hlast, hend⟩ := State.ticks_count_end (fun _ h => h.tick_of_early) s hs hpos
    rw [hend]
    exact hu.tick_of_end hlast

end Byte

section Timeout

/-- The timeout runs, the callback has no byte for its length, and the marker and RDA are `marker` and `rda`. -/
structure State.TimesOut (marker rda : Bool) (s : State) : Prop where
  inv : s.chan.Inv
  armed : s.chan.toArmed = true
  silent : ∀ a ∈ s.chan.rxIn.take s.chan.toCnt, a = none
  marker : s.chan.pending.getLsbD 4 = marker
  rda : s.chan.pending.getLsbD 0 = rda

/-- A tick uses up one answer at most (R911). -/
theorem tickCall_rxIn_cases {k : Call} (h : 1 ≤ k.ch.baudCnt) :
    (tickCall k).ch.rxIn = k.ch.rxIn ∨ (tickCall k).ch.rxIn = k.ch.rxIn.tail := by
  obtain hw | h1 := Nat.lt_or_eq_of_le h
  · obtain ⟨-, -, hrxIn, -⟩ := (countDown_countsDown k).offer
    exact .inl (tickCall_of_wait hw ▸ hrxIn)
  · rw [tickCall_rxIn h1.symm]
    exact ite_eq_or_eq ..

namespace State.TimesOut
variable {marker rda : Bool} {s : State} (hs : s.TimesOut marker rda)
include hs

theorem nextAnswer : s.chan.nextAnswer = none := by
  obtain ⟨n, hn⟩ := Nat.exists_eq_add_one_of_ne_zero (Nat.ne_of_gt (hs.inv.timers.armedLeft hs.armed))
  have hsilent := hs.silent
  rw [hn] at hsilent
  unfold Channel.nextAnswer
  cases hin : s.chan.rxIn with
  | nil => rfl
  | cons a rest =>
    rw [hin] at hsilent
    exact hsilent a (List.mem_cons_self ..)

/-- The answers left after a tick are `NONE` for the ticks left. -/
theorem silent_of_tick {n : Nat} (hn : n + 1 = s.chan.toCnt) :
    ∀ a ∈ (s.onChannel tickCall).chan.rxIn.take n, a = none := by
  have hsilent := hs.silent
  rw [← hn] at hsilent
  obtain hin | hin : (s.onChannel tickCall).chan.rxIn = _ ∨ (s.onChannel tickCall).chan.rxIn = _ :=
    tickCall_rxIn_cases (k := ⟨s.chan, s.events, none⟩) hs.inv.timers.baudLow <;> rw [hin]
  · exact fun a ha => hsilent a (List.take_subset_take_left _ (Nat.le_succ n) ha)
  · cases hl : s.chan.rxIn with
    | nil => simp
    | cons a rest => exact fun x hx => hsilent x (hl ▸ List.mem_cons_of_mem _ hx)

/-- With more than one tick left the timeout counts and raises nothing (R1010). -/
theorem tick_of_early (hleft : 1 < s.chan.toCnt) : (s.onChannel tickCall).TimesOut marker rda ∧
    (s.onChannel tickCall).chan.toCnt + 1 = s.chan.toCnt := by
  obtain ⟨t, ht, -, hmarker, hcounts, hrda⟩ := tickRunsTheCharacterTimeout s
  cases ht
  have hsilent := hs.nextAnswer
  obtain ⟨hfifo, -⟩ := hs.inv.timers.armedFifo hs.armed
  obtain ⟨harmed, hcnt⟩ := (hcounts (.inr (.inr (.inl hsilent)))).counts hs.armed hfifo hleft
  have hnext : (s.onChannel tickCall).chan.toCnt + 1 = s.chan.toCnt := by omega
  exact
    ⟨{ inv := channelCall_inv .tick ⟨s.chan, s.events, none⟩ rfl hs.inv
       armed := harmed
       silent := hs.silent_of_tick hnext
       marker := (hmarker fun _ _ => hleft).trans hs.marker
       rda := (hrda (.inr (.inr hsilent)) fun _ _ => hleft).trans hs.rda }, hnext⟩

/-- The last tick disarms the timeout and raises both bits of CTI (R1010). -/
theorem tick_of_end (hleft : s.chan.toCnt = 1) : (s.onChannel tickCall).chan.toArmed = false ∧
    (s.onChannel tickCall).chan.pending.getLsbD 4 = true ∧ (s.onChannel tickCall).chan.pending.getLsbD 0 = true := by
  obtain ⟨t, ht, hfires, -, hcounts, -⟩ := tickRunsTheCharacterTimeout s
  cases ht
  obtain ⟨hfifo, -⟩ := hs.inv.timers.armedFifo hs.armed
  exact ⟨((hcounts (.inr (.inr (.inl hs.nextAnswer)))).fires hs.armed hfifo hleft).1, hfires hs.armed hfifo hleft⟩

end State.TimesOut

/-- Settles O56: every tick but the last takes one from the timeout. -/
theorem theTimeoutFiresWhenItsCountdownEnds : Obligations.TheTimeoutFiresWhenItsCountdownEnds := by
  unfold Obligations.TheTimeoutFiresWhenItsCountdownEnds
  intro s hinv harmed hsilent
  have hs : s.TimesOut (s.chan.pending.getLsbD 4) (s.chan.pending.getLsbD 0) := ⟨hinv, harmed, hsilent, rfl, rfl⟩
  refine ⟨fun n hn => ⟨s.ticks n, runOps_replicate_tick n s, ?_⟩,
    s.ticks s.chan.toCnt, runOps_replicate_tick _ s, ?_⟩
  · obtain ⟨hn, -⟩ := State.ticks_count (fun _ h => h.tick_of_early) n s hs hn
    exact ⟨hn.armed, hn.marker, hn.rda⟩
  · obtain ⟨u, hu, hlast, hend⟩ :=
      State.ticks_count_end (fun _ h => h.tick_of_early) s hs (hinv.timers.armedLeft harmed)
    rw [hend]
    exact hu.tick_of_end hlast

end Timeout

end Sys2Proof.Machine
end

section
/-! The composite (R1101 to R1106): which child an aggregate offset selects, what its four operations do to the
children, and how a created device's children are numbered. Each operation is the stand-alone channel's, run on the
selected child or on every child in turn. -/

namespace Sys2Proof.Machine

section Selection
variable (d : Composite) (ao : AggregateOffset)

theorem localOf_toNat : (localOf ao).toNat = ao.toNat % 8 := BitVec.extractLsb'_toNat 0 3 ao

theorem Composite.size_pos : 0 < d.size := by
  cases d <;> exact Nat.succ_pos _

theorem Composite.size_eq_length : d.size = d.children.length := by
  cases d <;> rfl

/-- The ordinal is the number of the block of 8 offsets, within the device (R1102). -/
theorem Composite.childIndex_eq : d.childIndex ao = ao.toNat / 8 % d.size := by
  have hfield (n : Nat) : (ao.extractLsb' 3 n).toNat = ao.toNat / 8 % 2 ^ n := by
    rw [BitVec.extractLsb'_toNat, Nat.shiftRight_eq_div_pow]
  cases d with
  | dual c0 c1 => exact hfield 1
  | quad c0 c1 c2 c3 => exact hfield 2

theorem Composite.childIndex_lt : d.childIndex ao < d.size :=
  d.childIndex_eq ao ▸ Nat.mod_lt _ d.size_pos

/-- The offset within the device is the selected child's block and the local offset in it (R1102). -/
theorem Composite.childIndex_localOf : 8 * d.childIndex ao + (localOf ao).toNat = ao.toNat % (8 * d.size) := by
  rw [d.childIndex_eq, localOf_toNat, Nat.mod_mul, Nat.add_comm]

/-- Settles O37: the ordinal is a quotient by 8 and the local offset the remainder. -/
theorem aggregateOffsetSelectsTheChild : Obligations.AggregateOffsetSelectsTheChild := by
  unfold Obligations.AggregateOffsetSelectsTheChild
  intro d ao
  refine ⟨d.childIndex_lt ao, d.childIndex_localOf ao, d.childAt_childIndex ao, ?_⟩
  cases d with
  | dual c0 c1 => exact selectBit_toNat ao
  | quad c0 c1 c2 c3 => exact selectBits_toNat ao

end Selection

section Access
variable (d : Composite) (ao : AggregateOffset) (c : Channel)

theorem Composite.size_replace : (d.replace ao c).size = d.size := by
  rw [Composite.size_eq_length, Composite.children_replace, List.length_set, Composite.size_eq_length]

/-- A replacement is seen at the selected child's ordinal and nowhere else (R1106). -/
theorem Composite.childAt_replace (n : Nat) :
    (d.replace ao c).childAt n = if n = d.childIndex ao then some c else d.childAt n := by
  have hlt : d.childIndex ao < d.children.length := d.size_eq_length ▸ d.childIndex_lt ao
  rw [Composite.childAt, Composite.children_replace, List.getElem?_set, if_pos hlt, Composite.childAt]
  exact if_congr eq_comm rfl rfl

/-- A bus access to a child is the stand-alone channel's operation, run in the child's state (R1103). -/
theorem busAccess_on_selected (s : State) (write : Bool) (off : Offset) (b : Byte) :
    ∃ u, exec (decodeBus (s.comp.selected ao).view write off b) { s with chan := s.comp.selected ao } = .next u ∧
      s.onSelected ao (busAccess write off b) =
        { s with comp := s.comp.replace ao u.chan, events := u.events, result := u.result } :=
  ⟨_, exec_of_not_composite _ (decodeBus_isComposite ..), rfl⟩

/-- Settles O38: both accesses are bus accesses to the selected child, and a replacement is seen there only. -/
theorem compositeAccessActsOnTheSelectedChild : Obligations.CompositeAccessActsOnTheSelectedChild := by
  unfold Obligations.CompositeAccessActsOnTheSelectedChild
  refine ⟨fun v ao d => ⟨decode_compositeWord v 0#1 ao d, decode_compositeWord v 1#1 ao d⟩, fun s ao d i j h => ?_⟩
  obtain ⟨write, b, hi, hj⟩ : ∃ write b, exec i s = .next (s.onSelected ao (busAccess write (localOf ao) b)) ∧
      j = decodeBus (s.comp.selected ao).view write (localOf ao) b := by
    obtain ⟨rfl, hj⟩ | ⟨rfl, hj⟩ := h <;> rw [decode_channelWord, Except.ok.injEq] at hj
    · exact ⟨false, 0x00, rfl, hj.symm⟩
    · exact ⟨true, d, rfl, hj.symm⟩
  obtain ⟨u, hu, ht⟩ := busAccess_on_selected ao s write (localOf ao) b
  rw [hi, hj, ht]
  exact ⟨_, u, rfl, hu, rfl, rfl, rfl, rfl, rfl, Composite.size_replace ..,
    fun n => Composite.childAt_replace ..⟩

end Access

section EveryChild
variable {s : State} {c0 c1 c2 c3 : Channel}

/-- A call on every child of a dual is the call on a stand-alone channel in each one's state, in turn. -/
theorem State.onEveryChild_of_dual (op : Call → Call) (h : s.comp = .dual c0 c1) :
    let t0 := { s with chan := c0 }.onChannel op
    let t1 := { s with chan := c1, events := t0.events }.onChannel op
    s.onEveryChild op = { s with comp := .dual t0.chan t1.chan, events := t1.events, result := none } := by
  rw [State.onEveryChild, h]
  rfl

/-- A call on every child of a quad is the call on a stand-alone channel in each one's state, in turn. -/
theorem State.onEveryChild_of_quad (op : Call → Call) (h : s.comp = .quad c0 c1 c2 c3) :
    let t0 := { s with chan := c0 }.onChannel op
    let t1 := { s with chan := c1, events := t0.events }.onChannel op
    let t2 := { s with chan := c2, events := t1.events }.onChannel op
    let t3 := { s with chan := c3, events := t2.events }.onChannel op
    s.onEveryChild op =
      { s with comp := .quad t0.chan t1.chan t2.chan t3.chan, events := t3.events, result := none } := by
  rw [State.onEveryChild, h]
  rfl

/-- Settles O39: both operations run their channel's call on every child. -/
theorem compositeTickAndResetRunInChildOrder : Obligations.CompositeTickAndResetRunInChildOrder := by
  unfold Obligations.CompositeTickAndResetRunInChildOrder
  refine ⟨fun v => ⟨decode_encode (i := .ctick) rfl, decode_encode (i := .creset) rfl⟩, fun i j hij => ?_⟩
  obtain ⟨hi, hj⟩ : (∀ s, exec i s = .next (s.onEveryChild (channelCall j))) ∧ j.isComposite = false := by
    obtain ⟨rfl, rfl⟩ | ⟨rfl, rfl⟩ := hij <;> exact ⟨fun _ => rfl, rfl⟩
  have hrun (s : State) := exec_of_not_composite s hj
  constructor
  · intro s c0 c1 h
    refine ⟨_, _, hrun _, hrun _, ?_⟩
    rw [hi, State.onEveryChild_of_dual _ h]
  · intro s c0 c1 c2 c3 h
    refine ⟨_, _, _, _, hrun _, hrun _, hrun _, hrun _, ?_⟩
    rw [hi, State.onEveryChild_of_quad _ h]

end EveryChild

section Devices

/-- Creation gives the channel the configuration it was asked for (R1302). -/
theorem createCall_cfg (g : ChannelConfig) (es : List Event) : (createCall g es).ch.cfg = g :=
  channelCall_cfg ⟨Channel.initial g, es, none⟩ .reset

/-- Settles O40: the children are created in order, each with its own configuration. -/
theorem childrenAreNumberedInOrder : Obligations.ChildrenAreNumberedInOrder := by
  unfold Obligations.ChildrenAreNumberedInOrder
  intro sh shc p p0 p1 p2 p3
  constructor
  · simp [State.create, createDual, Composite.children, createCall_cfg, Config.child, Config.ordinalDigit]
  · simp [State.create, createQuad, Composite.children, createCall_cfg, Config.child, Config.ordinalDigit]

/-- An operation of the composite leaves the stand-alone channel (R1106). -/
theorem exec_composite_chan {i : Instr} {s t : State} (hi : i.isComposite = true) (h : exec i s = .next t) :
    t.chan = s.chan := by
  cases i with
  | crd ao => cases h; exact State.onSelected_chan ..
  | cwr ao d => cases h; exact State.onSelected_chan ..
  | ctick => cases h; exact State.onEveryChild_chan ..
  | creset => cases h; exact State.onEveryChild_chan ..
  | _ => cases hi

/-- Settles O41: an operation runs on one of the two devices only. -/
theorem devicesShareNoState : Obligations.DevicesShareNoState := by
  unfold Obligations.DevicesShareNoState
  intro i s t h
  refine ⟨fun hi => ?_, fun hi => exec_composite_chan hi h⟩
  rw [exec_of_not_composite s hi] at h
  cases h
  exact State.onChannel_comp ..

end Devices

end Sys2Proof.Machine
end

section
/-! The decode of the encoder's words (R300 to R305), the operations' next states (R1200), and the fixed bits over a
step (R134), each from the laws of the operations above. -/

namespace Sys2Proof.Machine

/-- Settles O2: the encoder writes the row's pattern, and the decode at its offset asks for the row's condition. -/
theorem decodeOfEncodeIsTheOperation : Obligations.DecodeOfEncodeIsTheOperation := by
  unfold Obligations.DecodeOfEncodeIsTheOperation
  exact fun v i => decode_encode

/-- Every operation has a next state: its channel's call runs on one device or the other (R1200). -/
theorem exec_next (i : Instr) (s : State) : ∃ t, exec i s = .next t := by
  cases hi : i.isComposite with
  | false => exact ⟨_, exec_of_not_composite s hi⟩
  | true =>
    obtain ⟨t, ht, -⟩ := exec_of_composite s hi
    exact ⟨t, ht⟩

/-- Settles O7: a waiting word that decodes runs an operation, and every operation has a next state. -/
theorem noOperationFails : Obligations.NoOperationFails := by
  unfold Obligations.NoOperationFails
  refine ⟨exec_next, fun s word rest hp => ?_⟩
  cases hd : decode s.chan.view word with
  | ok i => exact .inl (step_of_decode_eq_ok hp hd ▸ exec_next i _)
  | error e => exact .inr ⟨e, rfl⟩

/-- Settles O1: the ten words are the fields H, W, A and D of their rows, and the host codes. -/
theorem specWordsDecodeToTheirRows : Obligations.SpecWordsDecodeToTheirRows := by
  unfold Obligations.SpecWordsDecodeToTheirRows
  decide

/-- Settles O49: every operation keeps the fixed bits of its channel where it is decoded, so every step does. -/
theorem stepsKeepTheFixedBits : Obligations.StepsKeepTheFixedBits := by
  unfold Obligations.StepsKeepTheFixedBits
  exact fun s t => step_everywhere channelCall_fixedOk

end Sys2Proof.Machine
end

section
/-! Reset and creation (R1300 to R1305, R1107). A reset finds a blank channel as it leaves one, so a created channel is
the blank one, which meets the invariant, and creation's only callbacks are the line calls, one a channel. -/

namespace Sys2Proof.Machine

/-- After a reset the identification register shows no source, in the unbuffered discipline (R809, R1301). -/
theorem resetRegisters_iirValue (c : Channel) : (resetRegisters c).identified.iirValue = 0x01 := by
  rw [Channel.iirValue, Channel.identified_fifoOn, resetRegisters_fifoOn, (resetRegisters_identified c).1]
  rfl

/-- Settles O34: the reset assigns the registers, and the read finds no source identified and clears nothing. -/
theorem resetInvariantOnEveryVariant : Obligations.ResetInvariantOnEveryVariant := by
  unfold Obligations.ResetInvariantOnEveryVariant
  intro s
  have hid : (s.onChannel resetCall).chan.iirId ≠ 0b0010 := by
    rw [State.onChannel_chan, resetCall_ch, (resetRegisters_identified s.chan).1]
    decide
  have hdivisor : (0x00 : Byte) ++ (0x01 : Byte) = 0x0001#16 := by decide
  refine ⟨s.onChannel resetCall, (s.onChannel resetCall).onChannel rdIirCall, rfl, rfl, rfl, hdivisor, rfl, ?_⟩
  rw [State.onChannel_result, rdIirCall_of_not_thre (k := ⟨(s.onChannel resetCall).chan, _, none⟩) hid]
  exact congrArg some (resetRegisters_iirValue s.chan)

section Blank
variable (g : ChannelConfig)

@[simp] theorem Channel.initial_cfg : (Channel.initial g).cfg = g := rfl
@[simp] theorem Channel.initial_pending : (Channel.initial g).pending = 0 := rfl
@[simp] theorem Channel.initial_intLine : (Channel.initial g).intLine = false := rfl

/-- The reset routine finds every element of a blank channel at its reset value (R1300, R1302). -/
theorem resetRegisters_initial : resetRegisters (Channel.initial g) = Channel.initial g := by
  simp only [resetRegisters, Channel.initial, Channel.mk.injEq, true_and, and_true]
  refine ⟨ite_self _, ite_self _, ite_self _, ite_self _, ?_, ite_self _, ite_self _⟩
  split <;> rfl

/-- A blank channel identifies no source and its level is false (R1305). -/
theorem Channel.initial_identificationOk : (Channel.initial g).IdentificationOk := by
  obtain ⟨hid, hline⟩ := resetRegisters_identified (Channel.initial g)
  rw [resetRegisters_initial] at hid hline
  exact ⟨hid.symm, hline.symm⟩

theorem Channel.initial_interruptLevel : interruptLevel (Channel.initial g).pending (Channel.initial g).ier = false :=
  (Channel.initial_identificationOk g).intLine.symm

/-- A reset of a blank channel is its one line call (R1302, R1305). -/
theorem resetCall_initial (es : List Event) (r : Option Byte) :
    resetCall ⟨Channel.initial g, es, r⟩ = ⟨Channel.initial g, es ++ [.interruptLine g.handle false], r⟩ := by
  simp only [resetCall, Call.modify, resetRegisters_initial, recompute, Call.emit, Channel.initial_interruptLevel,
    Channel.identified_eq (Channel.initial_identificationOk g), Channel.initial_cfg]

theorem createCall_eq (es : List Event) :
    createCall g es = ⟨Channel.initial g, es ++ [.interruptLine g.handle false], none⟩ :=
  resetCall_initial g es none

/-- An empty buffer is a circular buffer of any depth (R126, R127). -/
theorem Fifo.empty_ok (depth : Nat) : Fifo.Ok depth ⟨[], 0, 0, 0⟩ where
  wf := rfl
  head := Nat.lt_of_lt_of_le Nat.zero_lt_one (Nat.le_max_right ..)
  count := Nat.zero_le _
  tail := (Nat.zero_mod _).symm

/-- A blank channel holds its parameters: its ICR is the one a reset writes where the variant has it. -/
theorem Channel.initial_parametersOk : (Channel.initial g).ParametersOk := by
  have hicr (hx : g.variant.x950 = true) : (Channel.initial g).icr = initialIcr g := if_pos hx
  obtain ⟨-, -, hid1, hid2, hid3, hrev, -⟩ := Memory.read_initialIcr_entries g
  refine ⟨?_, fun hx => hicr hx ▸ hid1, fun hx => hicr hx ▸ hid2, fun hx => hicr hx ▸ hid3,
    fun hx => hicr hx ▸ hrev, rfl⟩
  simp only [Channel.initial]
  split
  · exact Memory.wf_initialIcr g
  · rfl

/-- A blank channel has nothing set that is not stored or that its variant lacks (R134). -/
theorem Channel.initial_fixedOk : (Channel.initial g).FixedOk where
  lsr7 := resetRegisters_initial g ▸ resetRegisters_lsr7 _
  ier _ := BitVec.zero_and
  mcr _ := BitVec.zero_and
  fcr := BitVec.zero_and
  noFifo _ := rfl
  noBank _ := rfl
  noIcr hx := if_neg (Bool.eq_false_iff.mp hx)

/-- A blank channel meets the channel's invariant. -/
theorem Channel.initial_inv : (Channel.initial g).Inv where
  fifos := ⟨Fifo.empty_ok _, Fifo.empty_ok _⟩
  identification := Channel.initial_identificationOk g
  marker := ⟨(fun h => by simp at h), (fun h => by simp at h)⟩
  transmitter := resetRegisters_initial g ▸ resetRegisters_transmitterOk _
  timers := ⟨Nat.le_refl 1, Nat.le_of_ble_eq_true rfl, Nat.zero_le _, nofun, nofun, fun _ => rfl⟩
  fixed := Channel.initial_fixedOk g
  parameters := Channel.initial_parametersOk g

end Blank

section Creation
variable (sh shc : SharedParams) (p p0 p1 p2 p3 : ChildParams) (q : CompositeParams)

/-- The machine created with a dual (R1302, R1107). -/
theorem State.create_dual : State.create sh p (.dual shc p0 p1) =
    { chan := Channel.initial (Config.standalone sh p)
      comp := .dual (Channel.initial (Config.child shc 0 p0)) (Channel.initial (Config.child shc 1 p1))
      program := []
      pos := 0
      events := [.interruptLine .standalone false, .interruptLine (.child 0) false,
        .interruptLine (.child 1) false]
      result := none } := by
  simp only [State.create, createDual, createCall_eq]
  rfl

/-- The machine created with a quad (R1302, R1107). -/
theorem State.create_quad : State.create sh p (.quad shc p0 p1 p2 p3) =
    { chan := Channel.initial (Config.standalone sh p)
      comp := .quad (Channel.initial (Config.child shc 0 p0)) (Channel.initial (Config.child shc 1 p1))
        (Channel.initial (Config.child shc 2 p2)) (Channel.initial (Config.child shc 3 p3))
      program := []
      pos := 0
      events := [.interruptLine .standalone false, .interruptLine (.child 0) false,
        .interruptLine (.child 1) false, .interruptLine (.child 2) false, .interruptLine (.child 3) false]
      result := none } := by
  simp only [State.create, createQuad, createCall_eq]
  rfl

/-- Every channel of a created machine is blank. -/
theorem State.create_everywhere_initial :
    (State.create sh p q).Everywhere fun c => ∃ g, c = Channel.initial g := by
  cases q with
  | dual shc p0 p1 => simp [State.create_dual, State.Everywhere, State.channels, Composite.children]
  | quad shc p0 p1 p2 p3 => simp [State.create_quad, State.Everywhere, State.channels, Composite.children]

/-- Creation gives every channel its own handle and sub-channel number (R1101). -/
theorem State.create_identitiesOk : (State.create sh p q).IdentitiesOk := by
  cases q with
  | dual shc p0 p1 =>
    rw [State.create_dual]
    refine ⟨⟨rfl, rfl⟩, fun i c hc => ?_⟩
    match i with
    | 0 | 1 => obtain rfl := Option.some.inj hc; exact ⟨rfl, rfl⟩
    | 2 | 3 => cases hc
  | quad shc p0 p1 p2 p3 =>
    rw [State.create_quad]
    refine ⟨⟨rfl, rfl⟩, fun i c hc => ?_⟩
    match i with
    | 0 | 1 | 2 | 3 => obtain rfl := Option.some.inj hc; exact ⟨rfl, rfl⟩

/-- Creation has delivered the level of every channel (R132, R1305). -/
theorem State.create_linesDelivered : (State.create sh p q).LinesDelivered := by
  cases q with
  | dual shc p0 p1 =>
    simp [State.create_dual, State.LinesDelivered, State.Everywhere, State.channels, Composite.children,
      Config.standalone, Config.child, lineLevel, Event.levelFor]
  | quad shc p0 p1 p2 p3 =>
    simp [State.create_quad, State.LinesDelivered, State.Everywhere, State.channels, Composite.children,
      Config.standalone, Config.child, lineLevel, Event.levelFor]

/-- A created machine meets the machine's invariant, whatever the parameters. -/
theorem State.create_inv : (State.create sh p q).Inv where
  channels c hc := by
    obtain ⟨g, rfl⟩ := State.create_everywhere_initial sh p q c hc
    exact Channel.initial_inv g
  identities := State.create_identitiesOk sh p q
  lines := State.create_linesDelivered sh p q

end Creation

/-- A call that changes no child, run on every child, changes no child. -/
theorem State.onEveryChild_comp_of_forall {s : State} {op : Call → Call}
    (h : ∀ c ∈ s.comp.children, ∀ es, (op ⟨c, es, none⟩).ch = c) : (s.onEveryChild op).comp = s.comp := by
  obtain ⟨chan, comp, program, pos, events, result⟩ := s
  cases comp with
  | dual c0 c1 => simp_all [State.onEveryChild, Composite.children]
  | quad c0 c1 c2 c3 => simp_all [State.onEveryChild, Composite.children]

/-- Settles O35: a reset finds the created channels blank, and leaves them so. -/
theorem creationPerformsTheReset : Obligations.CreationPerformsTheReset := by
  unfold Obligations.CreationPerformsTheReset
  intro sh p q
  have hreset (c : Channel) (hc : c ∈ (State.create sh p q).channels) (es : List Event) :
      (resetCall ⟨c, es, none⟩).ch = c := by
    obtain ⟨g, rfl⟩ := State.create_everywhere_initial sh p q c hc
    rw [resetCall_initial]
  refine ⟨⟨_, rfl, hreset _ List.mem_cons_self _⟩, ⟨_, rfl, ?_⟩, State.create_inv sh p q, ?_⟩
  · exact State.onEveryChild_comp_of_forall fun c hc => hreset c (List.mem_cons_of_mem _ hc)
  · cases q with
    | dual shc p0 p1 => rw [State.create_dual]
    | quad shc p0 p1 p2 p3 => rw [State.create_quad]

/-- The reset state is the machine created as a quad with the default parameters (log entries 1 and 2). -/
theorem State.reset_eq_create : State.reset = State.create Config.defaultShared Config.defaultParams
    (.quad Config.defaultShared Config.defaultParams Config.defaultParams Config.defaultParams
      Config.defaultParams) :=
  (State.create_quad ..).symm

/-- Settles O36: the reset state is a created machine's. -/
theorem resetStateMeetsTheInvariant : Obligations.ResetStateMeetsTheInvariant := by
  unfold Obligations.ResetStateMeetsTheInvariant
  rw [State.reset_eq_create]
  exact State.create_inv ..

end Sys2Proof.Machine
end
